-- ==== Sys2Proof/Word.lean ====
section
/-! DEFINITION. The word types of the DHT22 protocol controller (00_scope.md section 6, 20_memory.md R42). -/

namespace Sys2Proof

/-- A host register or a command word, `REG_W` = 32 bits (00_scope.md section 5). -/
abbrev Word := BitVec 32

/-- One byte of the frame (10_state.md R18). -/
abbrev Byte := BitVec 8

/-- The 40-bit RawFrame: bit 39 is the first bit received (20_memory.md R45). -/
abbrev Frame := BitVec 40

/-- A register index, `REG_AW` = 3 bits (20_memory.md R41). -/
abbrev RegIndex := BitVec 3

end Sys2Proof
end

