-- ==== Sys2Proof/Syntax.lean ====
section
/-! DEFINITION. The instructions: one constructor per row of spec/opcode_table.json, and the code words they are
written as. An operand has the exact width the table gives it. -/

namespace Sys2Proof

/-- The nine phases of the sequencer (10_state.md R15, 30_encoding.md R66). -/
inductive Phase where
  | idle | paceWait | startLow | startHigh | ackLow | ackHigh | dataLow | bitHigh | bitLow
deriving DecidableEq, Repr

/-- The five result codes of a READ (30_encoding.md R65). -/
inductive ResultCode where
  | ok | notInitialized | timeout | checksumError | invalidData
deriving DecidableEq, Repr

/-- The three states of the pacing gate (10_state.md R14, 30_encoding.md R67). -/
inductive PaceState where
  | neverRead | ready | mustWait
deriving DecidableEq, Repr

/-- One constructor per row of spec/opcode_table.json. The ignored bits of a command word are operands of their own, so
that no bit of a word is lost (30_encoding.md R63; log entry 3). -/
inductive Instr where
  -- format CMD: `ignored` is word[31:2]
  | nop (ignored : BitVec 30)
  /-- `pin` is word[15:8], `ignHi` word[31:16], `ignLo` word[7:2] (30_encoding.md R60, R62). -/
  | init (pin : Byte) (ignHi : BitVec 16) (ignLo : BitVec 6)
  | read (ignored : BitVec 30)
  | rsvd (ignored : BitVec 30)
  -- format PHASE
  | idle | paceWait | startLow | startHigh | ackLow | ackHigh | dataLow | bitHigh | bitLow
  -- format RESULT
  | ok | notInitialized | timeout | checksumError | invalidData
  -- format PACE_STATE
  | neverRead | ready | mustWait
  /-- format FRAME40: `hum` is frame[39:24], `neg` frame[23], `mag` frame[22:8], `check` frame[7:0] (30_encoding.md R71). -/
  | frame (hum : BitVec 16) (neg : Bool) (mag : BitVec 15) (check : Byte)
deriving DecidableEq, Repr

/-- A coded word in one of the five formats of opcode_table.json. -/
inductive Encoded where
  | cmd (w : Word)
  | phase (c : BitVec 4)
  | result (c : BitVec 3)
  | paceState (c : BitVec 2)
  | frame (f : Frame)
deriving DecidableEq, Repr

end Sys2Proof
end

