-- ==== Sys2Proof/WellFormed.lean ====
section
/-! DEFINITION. Well-formedness. The operands of `Instr` have their exact widths, so every term of `Instr` can be encoded
and no term is ill formed; the checks are on coded words (a code the spec says never occurs) and on command words as
software should write them. -/

namespace Sys2Proof

/-- The code is one that the spec's tables define: result codes 5 to 7, phase codes 9 to 15 and pacing code 3 are never
produced (30_encoding.md R65, R66, R67); every command word and every frame is defined (R61, R71). -/
def Encoded.wellFormed : Encoded → Bool
  | .cmd _ => true
  | .phase c => decide (c.toNat ≤ 8)
  | .result c => decide (c.toNat ≤ 4)
  | .paceState c => decide (c.toNat ≤ 2)
  | .frame _ => true

/-- Command words as software should write them, with the ignored bits 0 (30_encoding.md R63). The hardware does not ask
for it: an instruction that is not canonical has the same meaning. -/
def Instr.canonical : Instr → Bool
  | .nop g => decide (g = 0)
  | .init _ gh gl => decide (gh = 0) && decide (gl = 0)
  | .read g => decide (g = 0)
  | .rsvd g => decide (g = 0)
  | .idle | .paceWait | .startLow | .startHigh | .ackLow | .ackHigh | .dataLow | .bitHigh | .bitLow => true
  | .ok | .notInitialized | .timeout | .checksumError | .invalidData => true
  | .neverRead | .ready | .mustWait => true
  | .frame _ _ _ _ => true

end Sys2Proof
end

