-- ==== Sys2Proof/Decode.lean ====
section
/-! DEFINITION. Codes, decoder and encoder (30_encoding.md), and the decoder behind the table's own numbering. -/

namespace Sys2Proof

/-- Why a coded word is no instruction. -/
inductive DecodeError where
  /-- phase codes 9 to 15 are never held (30_encoding.md R66) -/
  | noSuchPhase (c : BitVec 4)
  /-- result codes 5 to 7 are never produced (30_encoding.md R65) -/
  | noSuchResult (c : BitVec 3)
  /-- pacing code 3 never occurs (30_encoding.md R67) -/
  | noSuchPaceState (c : BitVec 2)
deriving DecidableEq, Repr

/-! ## Codes -/

/-- Phase codes (30_encoding.md R66). -/
def Phase.code : Phase → BitVec 4
  | .idle => 0
  | .paceWait => 1
  | .startLow => 2
  | .startHigh => 3
  | .ackLow => 4
  | .ackHigh => 5
  | .dataLow => 6
  | .bitHigh => 7
  | .bitLow => 8

/-- Result codes (30_encoding.md R65). -/
def ResultCode.code : ResultCode → BitVec 3
  | .ok => 0
  | .notInitialized => 1
  | .timeout => 2
  | .checksumError => 3
  | .invalidData => 4

/-- Pacing-state codes (30_encoding.md R67). -/
def PaceState.code : PaceState → BitVec 2
  | .neverRead => 0
  | .ready => 1
  | .mustWait => 2

/-- The instruction a phase stands for. -/
def Phase.instr : Phase → Instr
  | .idle => .idle
  | .paceWait => .paceWait
  | .startLow => .startLow
  | .startHigh => .startHigh
  | .ackLow => .ackLow
  | .ackHigh => .ackHigh
  | .dataLow => .dataLow
  | .bitHigh => .bitHigh
  | .bitLow => .bitLow

/-- The instruction a result code stands for. -/
def ResultCode.instr : ResultCode → Instr
  | .ok => .ok
  | .notInitialized => .notInitialized
  | .timeout => .timeout
  | .checksumError => .checksumError
  | .invalidData => .invalidData

/-- The instruction a pacing state stands for. -/
def PaceState.instr : PaceState → Instr
  | .neverRead => .neverRead
  | .ready => .ready
  | .mustWait => .mustWait

/-! ## Decoding -/

/-- The phase a 4-bit code names (30_encoding.md R66). -/
def decodePhase (c : BitVec 4) : Except DecodeError Phase :=
  match c.toNat with
  | 0 => .ok .idle
  | 1 => .ok .paceWait
  | 2 => .ok .startLow
  | 3 => .ok .startHigh
  | 4 => .ok .ackLow
  | 5 => .ok .ackHigh
  | 6 => .ok .dataLow
  | 7 => .ok .bitHigh
  | 8 => .ok .bitLow
  | _ => .error (.noSuchPhase c)

/-- The result a 3-bit code names (30_encoding.md R65). -/
def decodeResult (c : BitVec 3) : Except DecodeError ResultCode :=
  match c.toNat with
  | 0 => .ok .ok
  | 1 => .ok .notInitialized
  | 2 => .ok .timeout
  | 3 => .ok .checksumError
  | 4 => .ok .invalidData
  | _ => .error (.noSuchResult c)

/-- The pacing state a 2-bit code names (30_encoding.md R67). -/
def decodePaceState (c : BitVec 2) : Except DecodeError PaceState :=
  match c.toNat with
  | 0 => .ok .neverRead
  | 1 => .ok .ready
  | 2 => .ok .mustWait
  | _ => .error (.noSuchPaceState c)

/-- "A decoder looks at `reg_wdata[1:0]` and at nothing else to choose the command" (30_encoding.md R61); the PIN field is
bits [15:8] (R60, R62). Every word is a command. -/
def decodeCmd (w : Word) : Instr :=
  match (w.extractLsb' 0 2).toNat with
  | 0 => .nop (w.extractLsb' 2 30)
  | 1 => .init (w.extractLsb' 8 8) (w.extractLsb' 16 16) (w.extractLsb' 2 6)
  | 2 => .read (w.extractLsb' 2 30)
  | _ => .rsvd (w.extractLsb' 2 30)

/-- The fields of a frame (30_encoding.md R71). Every pattern is a frame. -/
def decodeFrame (f : Frame) : Instr :=
  .frame (f.extractLsb' 24 16) (f.getLsbD 23) (f.extractLsb' 8 15) (f.extractLsb' 0 8)

/-- The decoder over the five formats of opcode_table.json: total, a word that is no instruction is refused by name. -/
def decode : Encoded → Except DecodeError Instr
  | .cmd w => .ok (decodeCmd w)
  | .phase c => (decodePhase c).map Phase.instr
  | .result c => (decodeResult c).map ResultCode.instr
  | .paceState c => (decodePaceState c).map PaceState.instr
  | .frame f => .ok (decodeFrame f)

/-! ## Encoding -/

/-- Command words (30_encoding.md R60, R61). -/
def encodeCmd (op : BitVec 2) (ignored : BitVec 30) : Word := ignored ++ op

/-- The INIT word: ignored [31:16], PIN [15:8], ignored [7:2], OP = 1 (30_encoding.md R60, R62). -/
def encodeInit (pin : Byte) (ignHi : BitVec 16) (ignLo : BitVec 6) : Word :=
  ignHi ++ pin ++ ignLo ++ (1 : BitVec 2)

/-- The frame pattern `h s m c`, first bit received leftmost (30_encoding.md R71). -/
def encodeFrame (hum : BitVec 16) (neg : Bool) (mag : BitVec 15) (check : Byte) : Frame :=
  hum ++ BitVec.ofBool neg ++ mag ++ check

/-- The word of an instruction. -/
def encode : Instr → Encoded
  | .nop g => .cmd (encodeCmd 0 g)
  | .init pin gh gl => .cmd (encodeInit pin gh gl)
  | .read g => .cmd (encodeCmd 2 g)
  | .rsvd g => .cmd (encodeCmd 3 g)
  | .idle => .phase (Phase.code .idle)
  | .paceWait => .phase (Phase.code .paceWait)
  | .startLow => .phase (Phase.code .startLow)
  | .startHigh => .phase (Phase.code .startHigh)
  | .ackLow => .phase (Phase.code .ackLow)
  | .ackHigh => .phase (Phase.code .ackHigh)
  | .dataLow => .phase (Phase.code .dataLow)
  | .bitHigh => .phase (Phase.code .bitHigh)
  | .bitLow => .phase (Phase.code .bitLow)
  | .ok => .result (ResultCode.code .ok)
  | .notInitialized => .result (ResultCode.code .notInitialized)
  | .timeout => .result (ResultCode.code .timeout)
  | .checksumError => .result (ResultCode.code .checksumError)
  | .invalidData => .result (ResultCode.code .invalidData)
  | .neverRead => .paceState (PaceState.code .neverRead)
  | .ready => .paceState (PaceState.code .ready)
  | .mustWait => .paceState (PaceState.code .mustWait)
  | .frame h n m c => .frame (encodeFrame h n m c)

/-! ## The table's numbering -/

/-- The coded word that `nbits` bits `w` of opcode_table.json are. A row of 4 bits fills one byte, so 8 bits are read as a
phase code; the two narrower formats are told apart by their own widths 3 and 2 (log entry 10). -/
def encodedOfTable (nbits w : Nat) : Option Encoded :=
  match nbits with
  | 32 => if w < 2 ^ 32 then some (.cmd (BitVec.ofNat 32 w)) else none
  | 40 => if w < 2 ^ 40 then some (.frame (BitVec.ofNat 40 w)) else none
  | 8 => if w < 2 ^ 4 then some (.phase (BitVec.ofNat 4 w)) else none
  | 4 => if w < 2 ^ 4 then some (.phase (BitVec.ofNat 4 w)) else none
  | 3 => if w < 2 ^ 3 then some (.result (BitVec.ofNat 3 w)) else none
  | 2 => if w < 2 ^ 2 then some (.paceState (BitVec.ofNat 2 w)) else none
  | _ => none

/-- The instruction the decoder reads from a table word, none where it refuses. -/
def decodeTableWord (nbits w : Nat) : Option Instr :=
  match encodedOfTable nbits w with
  | none => none
  | some e =>
    match decode e with
    | .ok i => some i
    | .error _ => none

end Sys2Proof
end

