-- ==== Sys2Proof/Config.lean ====
section
/-! DEFINITION. What is fixed for one block: the parameters of `Step` with their defaults (00_scope.md R7, the open ones of
92_eei_decisions.md D23 and D25), and the free value of an input that no list gives. -/

namespace Sys2Proof

/-- The inputs of one tick, `In(t)` (10_state.md R25). -/
structure Input where
  /-- synchronous reset, active 1 -/
  rst : Bool
  /-- a register write is presented this tick -/
  regWe : Bool
  /-- register index of the write and of the read -/
  regAddr : RegIndex
  /-- write data -/
  regWdata : Word
  /-- sampled level of the line this tick -/
  lineIn : Bool
deriving DecidableEq, Repr, Inhabited

/-- The default of `CLK_HZ`, which the spec leaves OPEN and no rule uses (92_eei_decisions.md D25; log entry 7). -/
opaque Config.clkHz : Nat

/-- `FRAME_BITS`: bits per frame, the width of `frame` and no argument of `Step` (00_scope.md R7). -/
def Config.frameBits : Nat := 40

/-- The parameters of `Step` with their defaults: "A model takes the timing constants as arguments with the defaults above"
(00_scope.md R7; 92_eei_decisions.md D2, D10, D23, D25). The meanings, `execWith` and `stepWith` take them as an argument. -/
structure Config.Params where
  /-- start-signal low duration in ticks -/
  startLowUs : Nat := 18000
  /-- start-signal high duration in ticks -/
  startHighUs : Nat := 30
  /-- per-edge wait timeout in ticks -/
  edgeTimeoutUs : Nat := 200
  /-- bit-discrimination threshold in ticks -/
  bitThresholdUs : Nat := 50
  /-- minimum inter-read interval in milliseconds -/
  minIntervalMs : Nat := 2000
  /-- upper humidity bound in tenths of a percent -/
  humMaxX10 : Nat := 1000
  /-- upper temperature bound in tenths of a degree -/
  tempMaxX10 : Nat := 800
  /-- largest magnitude of a negative temperature in tenths -/
  tempMinMagX10 : Nat := 400
  /-- latency of the input synchroniser in ticks, OPEN with default 0 (D23) -/
  syncLat : Nat := 0
  /-- frequency of the clock the tick is divided from, OPEN and used by no rule (D25) -/
  clkHz : Nat := Config.clkHz
deriving DecidableEq, Repr

/-- `MIN_INTERVAL_TICKS` (00_scope.md R7). -/
def Config.Params.minIntervalTicks (p : Config.Params) : Nat := p.minIntervalMs * 1000

/-- The largest value the rules let `tmr` reach, 17999 for the defaults (10_state.md R16). DEDUCED for other constants
(log entry 4): the longest stay in a hold or wait phase. -/
def Config.Params.tmrMax (p : Config.Params) : Nat :=
  max (max (p.startLowUs - 1) (p.startHighUs - 1)) p.edgeTimeoutUs

/-- The largest value the rules let `pace_cnt` reach, `MIN_INTERVAL_TICKS - 1` (10_state.md R13). That it is 0 for an
interval of 0, which no rule describes, is DEDUCED (log entry 4). -/
def Config.Params.paceMax (p : Config.Params) : Nat := p.minIntervalTicks - 1

/-- `TMR_W`, the least width that holds `tmr`: 15 for the defaults (92_eei_decisions.md D22). -/
def Config.Params.tmrW (p : Config.Params) : Nat := Nat.log2 p.tmrMax + 1

/-- `PACE_W`, the least width that holds `pace_cnt`: 21 for the defaults (92_eei_decisions.md D22). -/
def Config.Params.paceW (p : Config.Params) : Nat := Nat.log2 p.paceMax + 1

/-- The defaults of 00_scope.md R7: the parameters of `exec` and `step`. -/
def Config.params : Config.Params := {}

/-- FREE VALUE: the inputs of a tick whose tuple the state's list does not give. 00_scope.md R3 puts no constraint on
the line and R6 none on when the host acts (log entry 1). -/
opaque Config.freeInput : Nat → Input

end Sys2Proof
end

