-- ==== Sys2Proof/Machine/Operands.lean ====
section
/-! DEFINITION. Operand forms: the bytes and fields of a frame, the pulse width, and the arithmetic of 44_validator.md
R148. -/

namespace Sys2Proof.Machine

/-! ## The frame bit space (20_memory.md R45) -/

/-- `FrameBitWrite(i, b)`: `frame[39-i] <- b` (20_memory.md R45). -/
def frameBitWrite (f : Frame) (i : Nat) (b : Bool) : Frame :=
  if b then f ||| BitVec.twoPow 40 (39 - i) else f &&& ~~~(BitVec.twoPow 40 (39 - i))

/-- Byte `k` of a frame, `frame[39-8k : 32-8k]` (20_memory.md R45). -/
def frameByte (f : Frame) (k : Nat) : Byte := f.extractLsb' (32 - 8 * k) 8

/-- `hum_raw = {b0, b1}` (44_validator.md R142). -/
def humRaw (f : Frame) : BitVec 16 := frameByte f 0 ++ frameByte f 1

/-- `neg = b2[7]` (44_validator.md R143; 90_conflicts.md C1). -/
def tempNeg (f : Frame) : Bool := (frameByte f 2).getLsbD 7

/-- `mag = {b2[6:0], b3}`, 15 bits (44_validator.md R143; 90_conflicts.md C2). -/
def tempMag (f : Frame) : BitVec 15 := (frameByte f 2).extractLsb' 0 7 ++ frameByte f 3

/-- The temperature in tenths, two's complement: `mag`, or `(2^16 - mag) mod 2^16` when the sign flag is set
(44_validator.md R145, R147). -/
def tempTenths (f : Frame) : BitVec 16 :=
  if tempNeg f then BitVec.ofNat 16 (2 ^ 16 - (tempMag f).toNat) else BitVec.ofNat 16 (tempMag f).toNat

/-! ## Pulse width (43_bit_decoder.md) -/

/-- `W = tmr + 1` at the tick of the falling observation (43_bit_decoder.md R122). -/
def pulseWidth (tmr : Nat) : Nat := tmr + 1

/-- A pulse wider than the threshold is a 1, the tie is a 0 (43_bit_decoder.md R123). -/
def pulseBit (threshold tmr : Nat) : Bool := decide (threshold < pulseWidth tmr)

/-! ## The pacing counter -/

/-- One tick of the countdown, stopping at 0 (45_pacing.md R161). -/
def countdown (c : Nat) : Nat := if 0 < c then c - 1 else 0

/-- `ceil(pace_cnt / 1000)` (45_pacing.md R168, 10_state.md R14). -/
def ceilMs (c : Nat) : Nat := (c + 999) / 1000

end Sys2Proof.Machine
end

