-- ==== Sys2Proof/Machine/State.lean ====
section
/-! DEFINITION. The state of the block, its reset value, and the reasons a step can stop. -/

namespace Sys2Proof.Machine

/-- The `stuck` treatment of 93_implementation_defined.md U10: a counter holds a value the spec says is never reached, so
no rule applies. Raised by `tickTo`, in no state a run reaches (10_state.md R33). SAFE: the model stops (log entry 5). -/
inductive Fault where
  /-- `tmr` above its largest value, 17999 for the defaults (10_state.md R16, R33 (f)); raised by `tickTo`; safe. -/
  | timerOutOfRange
  /-- `bit_idx` 40 to 63: it names no cell of the frame (10_state.md R17, R33 (d)); raised by `tickTo`; safe. -/
  | bitIndexOutOfRange
  /-- `pace_cnt` above its largest value, 1999999 for the defaults (10_state.md R13, R33 (c)); raised by `tickTo`; safe. -/
  | paceCountOutOfRange
deriving DecidableEq, Repr

/-- Why an instruction has no meaning. -/
inductive Refusal where
  /-- Raised by an arm of `exec` whose instruction has no meaning yet; safe. No arm raises it. -/
  | notModelled (mnemonic : String)
deriving DecidableEq, Repr

/-- `S(t)`: the thirteen elements of 10_state.md section 1, then two fields of the model's own (log entries 1 and 2). -/
structure State where
  /-- mode flag (R10) -/
  initialized : Bool
  /-- line identifier (R11) -/
  pin : Byte
  /-- a capture has happened since INIT or reset (R12) -/
  hasRead : Bool
  /-- pacing down-counter in ticks, `PACE_W` = 21 bits for the default constants (R13; log entry 15) -/
  paceCnt : Nat
  /-- sequencer phase, the block's program counter (R15) -/
  ph : Phase
  /-- phase and edge timer, `TMR_W` = 15 bits for the default constants (R16; log entry 15) -/
  tmr : Nat
  /-- index of the bit being received (R17) -/
  bitIdx : BitVec 6
  /-- RawFrame (R18) -/
  frame : Frame
  /-- result code of the last completed READ (R19) -/
  result : ResultCode
  /-- completion flag (R20) -/
  done : Bool
  /-- temperature in 0.1 degrees, two's complement (R21) -/
  tempX10 : BitVec 16
  /-- relative humidity in 0.1 percent (R22) -/
  humX10 : BitVec 16
  /-- sticky command fault (R23) -/
  cmdFault : Bool
  /-- MODEL'S OWN: the inputs of the coming ticks, the next tick's first (log entry 1) -/
  inputs : List Input
  /-- MODEL'S OWN: ticks taken so far, the index of the free value (log entry 2) -/
  tick : Nat
deriving DecidableEq, Repr

/-- The outcome of a tick. -/
abbrev Out := Host.Outcome State Fault Refusal

/-- `ResetState` (10_state.md R35, 70_reset_and_hazards.md R201). The last two fields are the model's own: DESIGN CHOICE
(log entries 1 and 2), and no statement rests on them. -/
def State.reset : State where
  initialized := false
  pin := 0
  hasRead := false
  paceCnt := 0
  ph := .idle
  tmr := 0
  bitIdx := 0
  frame := 0
  result := .ok
  done := false
  tempX10 := 0
  humX10 := 0
  cmdFault := false
  inputs := []
  tick := 0

end Sys2Proof.Machine
end

