-- ==== Sys2Proof/Machine/Flags.lean ====
section
/-! DEFINITION. Every flag computation: the checks of the validator, the views of the state (`busy`, the pacing state, the
pad signals) and the STATUS word. -/

namespace Sys2Proof.Machine

/-! ## The validator's checks -/

/-- The sum of the four data bytes, formed without loss and truncated to 8 bits, equals `b4` (44_validator.md R141). -/
def checksumOk (f : Frame) : Bool :=
  decide (((frameByte f 0).toNat + (frameByte f 1).toNat + (frameByte f 2).toNat + (frameByte f 3).toNat) % 256
    = (frameByte f 4).toNat)

/-- The range validation on the raw integers, both ends inside (44_validator.md R144). -/
def rangeOk (p : Config.Params) (f : Frame) : Bool :=
  decide ((humRaw f).toNat ≤ p.humMaxX10) &&
    (if tempNeg f then decide ((tempMag f).toNat ≤ p.tempMinMagX10) else decide ((tempMag f).toNat ≤ p.tempMaxX10))

/-! ## Views of the state -/

/-- `busy` (10_state.md R24). -/
def State.busy (s : State) : Bool := decide (s.ph ≠ .idle)

/-- `line_oe`: the block drives the line exactly in START_LOW and START_HIGH (10_state.md R24). -/
def State.lineOe (s : State) : Bool := decide (s.ph = .startLow ∨ s.ph = .startHigh)

/-- `line_out`: 0 in START_LOW, else 1 (10_state.md R24). -/
def State.lineOut (s : State) : Bool := decide (s.ph ≠ .startLow)

/-- `pull_en` (10_state.md R24). -/
def State.pullEn (s : State) : Bool := s.initialized

/-- `pin_sel` (10_state.md R11, R24). -/
def State.pinSel (s : State) : Byte := s.pin

/-- The pacing state (10_state.md R14). DEDUCED for the unreachable pair `has_read = 0`, `pace_cnt > 0`: NeverRead
(log entry 11). -/
def State.paceState (s : State) : PaceState :=
  if s.hasRead = false then .neverRead else if s.paceCnt = 0 then .ready else .mustWait

/-- `remaining_ms` of MustWait (10_state.md R14, 45_pacing.md R168). -/
def State.remainingMs (s : State) : Nat := ceilMs s.paceCnt

/-- A wait phase, the only phases that read `line_in` (00_scope.md section 8, 10_state.md R25). -/
def phaseIsWait : Phase → Bool
  | .ackLow | .ackHigh | .dataLow | .bitHigh | .bitLow => true
  | .idle | .paceWait | .startLow | .startHigh => false

/-- STATUS (10_state.md R27), its fields from bit 31 down. -/
def State.status (s : State) : Word :=
  (0 : BitVec 2) ++ s.bitIdx ++ (0 : BitVec 4) ++ s.ph.code ++ (0 : BitVec 6) ++ s.paceState.code ++ (0 : BitVec 1) ++
    s.result.code ++ BitVec.ofBool s.cmdFault ++ BitVec.ofBool s.done ++ BitVec.ofBool s.busy ++
    BitVec.ofBool s.initialized

end Sys2Proof.Machine
end

