-- ==== Sys2Proof/Machine/Ops.lean ====
section
/-! DEFINITION. The shared operations a tick is made of. A tick reads `s = S(t)` and builds `t = S(t+1)`: first the part
that every tick has (`elapse`), then an effect on the state under construction; a later assignment wins
(40_commands.md R80). Completion, this block's exception entry, is `complete`; nothing returns from it
(60_exceptions.md R181, R183). -/

namespace Sys2Proof.Machine

/-! ## The inputs of a tick -/

/-- `In(t)`: the head of the list, or a free value when no tuple is listed (10_state.md R25; log entry 1). -/
def State.input (s : State) : Input := s.inputs.headD (Config.freeInput s.tick)

/-- The inputs of the tick `j` ticks ahead. -/
def State.inputAt (s : State) (j : Nat) : Input := (s.inputs.drop j).headD (Config.freeInput (s.tick + j))

/-- A CMD write is presented: `reg_we = 1` and `reg_addr = 0` (20_memory.md R41, 40_commands.md R80 part 3). -/
def cmdWrite (i : Input) : Bool := i.regWe && decide (i.regAddr = 0)

/-! ## The tick -/

/-- A counter outside the range the rules reach (93_implementation_defined.md U10; log entry 5). -/
def State.rangeFault (p : Config.Params) (s : State) : Option Fault :=
  if p.tmrMax < s.tmr then some .timerOutOfRange
  else if Config.frameBits ≤ s.bitIdx.toNat then some .bitIndexOutOfRange
  else if p.paceMax < s.paceCnt then some .paceCountOutOfRange
  else none

/-- Part 1 of every tick, the pacing countdown (40_commands.md R80, 45_pacing.md R161), with the model's own input list
and tick count moved on. -/
def elapse (s : State) : State :=
  { s with paceCnt := countdown s.paceCnt, inputs := s.inputs.tail, tick := s.tick + 1 }

/-- One tick without reset of a block with parameters `p`: part 1, then the effect. -/
def tickTo (p : Config.Params) (s : State) (effect : State → State) : Out :=
  match s.rangeFault p with
  | some e => .fault e
  | none => .next (effect (elapse s))

/-- A tick with `rst = 1` (70_reset_and_hazards.md R200). -/
def resetTick (s : State) : State :=
  { State.reset with inputs := s.inputs.tail, tick := s.tick + 1 }

/-! ## Updates of the state under construction -/

/-- `enter(P)` (00_scope.md section 7). -/
def enter (p : Phase) (t : State) : State := { t with ph := p, tmr := 0 }

/-- `tmr' <- tmr + 1` (10_state.md R16). -/
def countTimer (t : State) : State := { t with tmr := t.tmr + 1 }

/-- `complete(code)`, the one way a READ ends (60_exceptions.md R181). -/
def complete (code : ResultCode) (t : State) : State := { t with result := code, done := true, ph := .idle }

/-- Step 1 of the capture: `has_read' <- 1`, `pace_cnt' <- MIN_INTERVAL_TICKS - 1` (44_validator.md R140, 45_pacing.md R163). -/
def recordCapture (p : Config.Params) (t : State) : State := { t with hasRead := true, paceCnt := p.paceMax }

/-- The captured frame is stored and the timer cleared, as every success does (43_bit_decoder.md R121, 44_validator.md R140). -/
def storeFrame (f : Frame) (t : State) : State := { t with frame := f, tmr := 0 }

/-- `hum_x10'` and `temp_x10'` from a frame (44_validator.md R145). -/
def writeReading (f : Frame) (t : State) : State := { t with humX10 := humRaw f, tempX10 := tempTenths f }

/-- A READ leaves the gate: `enter(START_LOW)` with `frame` and `bit_idx` cleared (45_pacing.md R162). -/
def openGate (t : State) : State := { t with ph := .startLow, tmr := 0, frame := 0, bitIdx := 0 }

/-- Bit `b` is stored at index `bit_idx` and the next bit begins (43_bit_decoder.md R121, the case `bit_idx < 39`). -/
def storeBit (b : Bool) (t : State) : State :=
  { t with frame := frameBitWrite t.frame t.bitIdx.toNat b, bitIdx := t.bitIdx + 1, ph := .bitHigh, tmr := 0 }

/-- `cmd_fault' <- 1` (10_state.md R23). -/
def setCmdFault (t : State) : State := { t with cmdFault := true }

/-- What an accepted INIT writes (40_commands.md R83). -/
def acceptInit (pin : Byte) (t : State) : State :=
  { t with pin := pin, initialized := true, hasRead := false, paceCnt := 0 }

/-- What a READ accepted in Initialized mode writes (40_commands.md R84). -/
def acceptRead (t : State) : State := { t with ph := .paceWait, done := false }

/-! ## Hold and wait steps -/

/-- A hold phase of `len` ticks (42_handshake.md R110, R111). That a `len` of 0, which no rule describes, acts as 1 is DEDUCED
(log entry 4). -/
def holdStep (len : Nat) (nxt : Phase) (s t : State) : State :=
  if s.tmr = len - 1 then enter nxt t else countTimer t

/-- The wait step (41_waiter.md R101): sample first, success wins; the sample at elapsed `timeout` is the last. -/
def waitStep (timeout : Nat) (target : Bool) (success failure : State → State) (s t : State) : State :=
  if s.input.lineIn = target then success t
  else if s.tmr = timeout then failure t
  else countTimer t

end Sys2Proof.Machine
end

