-- ==== Sys2Proof/Machine/Completion.lean ====
section
/-! DEFINITION. The rows of format RESULT: the five ways a READ ends (60_exceptions.md R175 to R182). Each `on…` is the
effect on the state under construction; each `exec…` is the whole tick in which a READ ends that way, as a row of its own
(log entry 12). -/

namespace Sys2Proof.Machine

/-- NotInitialized: `complete(1)` and nothing else (60_exceptions.md R176, 40_commands.md R85). -/
def onNotInitialized (t : State) : State := complete .notInitialized t

/-- Timeout: `complete(2)` and nothing else (60_exceptions.md R177). -/
def onTimeout (t : State) : State := complete .timeout t

/-- ChecksumError: the capture is recorded, then `complete(3)` (60_exceptions.md R178). -/
def onChecksumError (p : Config.Params) (t : State) : State := complete .checksumError (recordCapture p t)

/-- InvalidData: the capture is recorded, then `complete(4)` (60_exceptions.md R179). -/
def onInvalidData (p : Config.Params) (t : State) : State := complete .invalidData (recordCapture p t)

/-- OK: the capture is recorded, the Reading of the frame held is written, then `complete(0)` (44_validator.md R140, R145). -/
def onOk (p : Config.Params) (t : State) : State := complete .ok (writeReading t.frame (recordCapture p t))

/-- OK, the tick (60_exceptions.md R175, R182). DESIGN CHOICE (log entry 16): as a row of its own it takes the frame to be
complete in State, so `frame` and `tmr` stay as they are; the capture tick, which stores the last bit and clears `tmr`
(R182's `frame` and `tmr`), is the FRAME row's. -/
def execOk (s : State) (p : Config.Params := Config.params) : Out := tickTo p s (onOk p)

/-- NOT_INITIALIZED, the tick (60_exceptions.md R176). -/
def execNotInitialized (s : State) (p : Config.Params := Config.params) : Out := tickTo p s onNotInitialized

/-- TIMEOUT, the tick (60_exceptions.md R177). DESIGN CHOICE (log entry 16): as a row of its own it leaves `tmr` as it is,
which is R182's 200 in a wait that has run out. -/
def execTimeout (s : State) (p : Config.Params := Config.params) : Out := tickTo p s onTimeout

/-- CHECKSUM_ERROR, the tick (60_exceptions.md R178). DESIGN CHOICE (log entry 16): `frame` and `tmr` as in `execOk`. -/
def execChecksumError (s : State) (p : Config.Params := Config.params) : Out := tickTo p s (onChecksumError p)

/-- INVALID_DATA, the tick (60_exceptions.md R179). DESIGN CHOICE (log entry 16): `frame` and `tmr` as in `execOk`. -/
def execInvalidData (s : State) (p : Config.Params := Config.params) : Out := tickTo p s (onInvalidData p)

end Sys2Proof.Machine
end

