-- ==== Sys2Proof/Machine/Validator.lean ====
section
/-! DEFINITION. The row of format FRAME40: `Complete(F)`, the capture tick of a frame (44_validator.md R140). -/

namespace Sys2Proof.Machine

/-- `Complete(F)`: the capture is recorded whatever the checks say, the checksum comes before the range check, and the
Reading is written only when both pass (44_validator.md R140 steps 1 to 5). -/
def onFrame (p : Config.Params) (f : Frame) (t : State) : State :=
  if checksumOk f = false then onChecksumError p (storeFrame f t)
  else if rangeOk p f = false then onInvalidData p (storeFrame f t)
  else onOk p (storeFrame f t)

/-- FRAME, the capture tick of the frame with these fields (30_encoding.md R71, 44_validator.md R140). DESIGN CHOICE (log
entry 12): run as a row of its own it is this tick in every state; `bit_idx` stays as it is, which is R182's 39 in the
capture tick of a run. -/
def execFrame (hum : BitVec 16) (neg : Bool) (mag : BitVec 15) (check : Byte) (s : State)
    (p : Config.Params := Config.params) : Out :=
  tickTo p s (onFrame p (encodeFrame hum neg mag check))

end Sys2Proof.Machine
end

