-- ==== Sys2Proof/Machine/BitDecoder.lean ====
section
/-! DEFINITION. The Bitstream Decoder (43_bit_decoder.md): BIT_HIGH and BIT_LOW. -/

namespace Sys2Proof.Machine

/-- BIT_HIGH, steps (a) and (b) (43_bit_decoder.md R120). -/
def onBitHigh (p : Config.Params) (s t : State) : State :=
  waitStep p.edgeTimeoutUs true (enter .bitLow) onTimeout s t

/-- The end of a pulse (43_bit_decoder.md R121): bits 0 to 38 are stored and the next bit begins, the fortieth completes
the frame in the same tick (R124). -/
def pulseEnd (p : Config.Params) (s t : State) : State :=
  if s.bitIdx.toNat = Config.frameBits - 1 then
    onFrame p (frameBitWrite s.frame s.bitIdx.toNat (pulseBit p.bitThresholdUs s.tmr)) t
  else storeBit (pulseBit p.bitThresholdUs s.tmr) t

/-- BIT_LOW, steps (c) and (d), decoding and packing (43_bit_decoder.md R121). -/
def onBitLow (p : Config.Params) (s t : State) : State :=
  waitStep p.edgeTimeoutUs false (pulseEnd p s) onTimeout s t

/-- BIT_HIGH, the tick (43_bit_decoder.md R120). -/
def execBitHigh (s : State) (p : Config.Params := Config.params) : Out := tickTo p s (onBitHigh p s)

/-- BIT_LOW, the tick (43_bit_decoder.md R121). -/
def execBitLow (s : State) (p : Config.Params := Config.params) : Out := tickTo p s (onBitLow p s)

end Sys2Proof.Machine
end

