-- ==== Sys2Proof/Machine/Gate.lean ====
section
/-! DEFINITION. The Pacing Gate (45_pacing.md): the rows of format PACE_STATE, what the gate does with a READ it holds in
each of its states, and the phase PACE_WAIT. -/

namespace Sys2Proof.Machine

/-- NeverRead: "proceed immediately" (45_pacing.md section 1, R162 corner case (a)). -/
def onNeverRead (t : State) : State := openGate t

/-- Ready: the interval has passed, "proceed immediately" (45_pacing.md section 1, R162 corner case (a)). -/
def onReady (t : State) : State := openGate t

/-- MustWait: the READ stays and only the countdown changes state (45_pacing.md R162). -/
def onMustWait (t : State) : State := t

/-- PACE_WAIT (45_pacing.md R162). The decision reads `pace_cnt` of S(t) alone (10_state.md R12; log entry 11). -/
def onPaceWait (s t : State) : State :=
  if s.paceCnt = 0 then (if s.hasRead then onReady t else onNeverRead t) else onMustWait t

/-- NEVER_READ, the tick of a held READ in this state of the gate (10_state.md R14, 45_pacing.md R162; log entry 12). -/
def execNeverRead (s : State) (p : Config.Params := Config.params) : Out := tickTo p s onNeverRead

/-- READY, the tick of a held READ in this state of the gate (10_state.md R14, 45_pacing.md R162; log entry 12). -/
def execReady (s : State) (p : Config.Params := Config.params) : Out := tickTo p s onReady

/-- MUST_WAIT, the tick of a held READ in this state of the gate (10_state.md R14, 45_pacing.md R162; log entry 12). -/
def execMustWait (s : State) (p : Config.Params := Config.params) : Out := tickTo p s onMustWait

/-- PACE_WAIT, the tick (45_pacing.md R162). -/
def execPaceWait (s : State) (p : Config.Params := Config.params) : Out := tickTo p s (onPaceWait s)

end Sys2Proof.Machine
end

