-- ==== Sys2Proof/Machine/Handshake.lean ====
section
/-! DEFINITION. The Handshake Sequencer (42_handshake.md): two hold phases and three wait phases. -/

namespace Sys2Proof.Machine

/-- START_LOW (42_handshake.md R110). -/
def onStartLow (p : Config.Params) (s t : State) : State := holdStep p.startLowUs .startHigh s t

/-- START_HIGH (42_handshake.md R111). -/
def onStartHigh (p : Config.Params) (s t : State) : State := holdStep p.startHighUs .ackLow s t

/-- ACK_LOW: "low (sensor acknowledges)" (42_handshake.md R113). -/
def onAckLow (p : Config.Params) (s t : State) : State :=
  waitStep p.edgeTimeoutUs false (enter .ackHigh) onTimeout s t

/-- ACK_HIGH: "high (sensor ready)" (42_handshake.md R114). -/
def onAckHigh (p : Config.Params) (s t : State) : State :=
  waitStep p.edgeTimeoutUs true (enter .dataLow) onTimeout s t

/-- DATA_LOW: "low (sensor begins data transmission)" (42_handshake.md R115). -/
def onDataLow (p : Config.Params) (s t : State) : State :=
  waitStep p.edgeTimeoutUs false (enter .bitHigh) onTimeout s t

/-- START_LOW, the tick (42_handshake.md R110). -/
def execStartLow (s : State) (p : Config.Params := Config.params) : Out := tickTo p s (onStartLow p s)

/-- START_HIGH, the tick (42_handshake.md R111). -/
def execStartHigh (s : State) (p : Config.Params := Config.params) : Out := tickTo p s (onStartHigh p s)

/-- ACK_LOW, the tick (42_handshake.md R113). -/
def execAckLow (s : State) (p : Config.Params := Config.params) : Out := tickTo p s (onAckLow p s)

/-- ACK_HIGH, the tick (42_handshake.md R114). -/
def execAckHigh (s : State) (p : Config.Params := Config.params) : Out := tickTo p s (onAckHigh p s)

/-- DATA_LOW, the tick (42_handshake.md R115). -/
def execDataLow (s : State) (p : Config.Params := Config.params) : Out := tickTo p s (onDataLow p s)

end Sys2Proof.Machine
end

