-- ==== Sys2Proof/Machine/Sequencer.lean ====
section
/-! DEFINITION. The phase IDLE and part 2 of `Step`: the phase action chosen by `ph` (40_commands.md R80, R88). -/

namespace Sys2Proof.Machine

/-- IDLE: part 2 does nothing (40_commands.md R88). -/
def onIdle (t : State) : State := t

/-- Part 2 of `Step` with the parameters `p` (40_commands.md R80). -/
def phaseAction (p : Config.Params) (s t : State) : State :=
  match s.ph with
  | .idle => onIdle t
  | .paceWait => onPaceWait s t
  | .startLow => onStartLow p s t
  | .startHigh => onStartHigh p s t
  | .ackLow => onAckLow p s t
  | .ackHigh => onAckHigh p s t
  | .dataLow => onDataLow p s t
  | .bitHigh => onBitHigh p s t
  | .bitLow => onBitLow p s t

/-- IDLE, the tick (40_commands.md R88). -/
def execIdle (s : State) (p : Config.Params := Config.params) : Out := tickTo p s onIdle

end Sys2Proof.Machine
end

