-- ==== Sys2Proof/Machine/Commands.lean ====
section
/-! DEFINITION. The rows of format CMD (40_commands.md R82 to R87). The meaning of a command is the whole tick in which
it is presented: parts 1 and 2, then part 3 on the state they leave (log entry 12). -/

namespace Sys2Proof.Machine

/-- Part 3 for INIT and READ: accepted in IDLE, otherwise dropped with `cmd_fault` (40_commands.md R81, R87). `ph` is that
of S(t): a command in a completion tick is not accepted. -/
def present (accept : State → State) (s t : State) : State :=
  if s.ph = .idle then accept t else setCmdFault t

/-- NOP: no effect in any phase (40_commands.md R82). -/
def execNop (_ignored : BitVec 30) (s : State) (p : Config.Params := Config.params) : Out := tickTo p s (phaseAction p s)

/-- INIT (40_commands.md R83, R87); the ignored bits have no effect (30_encoding.md R63). -/
def execInit (pin : Byte) (_ignHi : BitVec 16) (_ignLo : BitVec 6) (s : State)
    (p : Config.Params := Config.params) : Out :=
  tickTo p s fun t => present (acceptInit pin) s (phaseAction p s t)

/-- READ in either mode (40_commands.md R84, R85). -/
def onRead (s t : State) : State := if s.initialized then acceptRead t else onNotInitialized t

/-- READ (40_commands.md R84, R85, R87). -/
def execRead (_ignored : BitVec 30) (s : State) (p : Config.Params := Config.params) : Out :=
  tickTo p s fun t => present (onRead s) s (phaseAction p s t)

/-- RSVD: `cmd_fault' <- 1` in any phase (40_commands.md R86). -/
def execRsvd (_ignored : BitVec 30) (s : State) (p : Config.Params := Config.params) : Out :=
  tickTo p s fun t => setCmdFault (phaseAction p s t)

end Sys2Proof.Machine
end

