-- ==== Sys2Proof/Machine/Dispatch.lean ====
section
/-! DEFINITION. One arm per constructor of `Instr`. -/

namespace Sys2Proof.Machine

def exec (i : Instr) (s : State) : Host.Outcome State Fault Refusal :=
  match i with
  -- format CMD
  | .nop g => Sys2Proof.Machine.execNop g s
  | .init p gh gl => Sys2Proof.Machine.execInit p gh gl s
  | .read g => Sys2Proof.Machine.execRead g s
  | .rsvd g => Sys2Proof.Machine.execRsvd g s
  -- format PHASE
  | .idle => Sys2Proof.Machine.execIdle s
  | .paceWait => Sys2Proof.Machine.execPaceWait s
  | .startLow => Sys2Proof.Machine.execStartLow s
  | .startHigh => Sys2Proof.Machine.execStartHigh s
  | .ackLow => Sys2Proof.Machine.execAckLow s
  | .ackHigh => Sys2Proof.Machine.execAckHigh s
  | .dataLow => Sys2Proof.Machine.execDataLow s
  | .bitHigh => Sys2Proof.Machine.execBitHigh s
  | .bitLow => Sys2Proof.Machine.execBitLow s
  -- format RESULT
  | .ok => Sys2Proof.Machine.execOk s
  | .notInitialized => Sys2Proof.Machine.execNotInitialized s
  | .timeout => Sys2Proof.Machine.execTimeout s
  | .checksumError => Sys2Proof.Machine.execChecksumError s
  | .invalidData => Sys2Proof.Machine.execInvalidData s
  -- format PACE_STATE
  | .neverRead => Sys2Proof.Machine.execNeverRead s
  | .ready => Sys2Proof.Machine.execReady s
  | .mustWait => Sys2Proof.Machine.execMustWait s
  -- format FRAME40
  | .frame h n m c => Sys2Proof.Machine.execFrame h n m c s

end Sys2Proof.Machine
end

