-- ==== Sys2Proof/Machine/Script.lean ====
section
/-! DEFINITION. The textual forms of 30_encoding.md R72: host scripts and line scripts, turned into the list of inputs a
state holds, and the input synchroniser of 92_eei_decisions.md D23 in front of the line. -/

namespace Sys2Proof.Machine

/-- One host action of a script line `@t …` (30_encoding.md R72). -/
inductive HostAction where
  | nop
  | init (p : Byte)
  | read
  | rsvd
  /-- `RD name`, by register index -/
  | rd (k : RegIndex)
  | rst
deriving DecidableEq, Repr

/-- A tick with no host action and the given level on the line. -/
def quietInput (line : Bool) : Input where
  rst := false
  regWe := false
  regAddr := 0
  regWdata := 0
  lineIn := line

/-- A write of `w` to CMD, over the inputs of the tick. -/
def inputWithCmd (i : Input) (w : Word) : Input := { i with regWe := true, regAddr := 0, regWdata := w }

/-- The word a host action writes to CMD (the table of 30_encoding.md R72). -/
def HostAction.word : HostAction → Option Word
  | .nop => some 0
  | .init p => some (encodeInit p 0 0)
  | .read => some 2
  | .rsvd => some 3
  | .rd _ => none
  | .rst => none

/-- The inputs of a tick with one more host action. A write and a read of one tick share `reg_addr` (20_memory.md R41), so
a read beside a write has no index of its own (DEDUCED, log entry 9). -/
def HostAction.present (a : HostAction) (i : Input) : Input :=
  match a.word, a with
  | some w, _ => inputWithCmd i w
  | none, .rst => { i with rst := true }
  | none, .rd k => if i.regWe then i else { i with regAddr := k }
  | none, _ => i

/-- A line script of run lengths, as levels tick by tick (30_encoding.md R72). -/
def lineLevels : List (Bool × Nat) → List Bool
  | [] => []
  | (b, n) :: rest => List.replicate n b ++ lineLevels rest

/-- A synchroniser of `d` ticks: the levels are seen `d` ticks late (92_eei_decisions.md D23; log entry 7). `first` is what
it held before. -/
def throughSynchroniser (d : Nat) (first : Bool) (pad : List Bool) : List Bool :=
  (List.replicate d first ++ pad).take pad.length

/-- The inputs from tick `t` on: the levels of the line, and the host actions at their ticks. -/
def scriptInputs (host : List (Nat × HostAction)) : Nat → List Bool → List Input
  | _, [] => []
  | t, b :: rest =>
    ((host.filter fun a => a.1 == t).foldl (fun i a => a.2.present i) (quietInput b)) :: scriptInputs host (t + 1) rest

/-- A state with a script in front of it: the line's levels pass the synchroniser, `SYNC_LAT` ticks deep. -/
def State.withScript (s : State) (host : List (Nat × HostAction)) (line : List (Bool × Nat))
    (p : Config.Params := Config.params) : State :=
  { s with
    inputs := scriptInputs host s.tick (throughSynchroniser p.syncLat true (lineLevels line)) }

end Sys2Proof.Machine
end

