-- ==== Sys2Proof/Machine/Fetch.lean ====
section
/-! DEFINITION. What a tick runs, and how a state is made to run a given word next. -/

namespace Sys2Proof.Machine

/-- The coded word of the tick: the command word when a CMD write is presented, else the code of the phase
(40_commands.md R80; log entry 12). -/
def fetchWord (s : State) : Encoded :=
  if cmdWrite s.input then .cmd s.input.regWdata else .phase s.ph.code

/-- The instruction of the tick. -/
def fetch (s : State) : Instr :=
  if cmdWrite s.input then decodeCmd s.input.regWdata else s.ph.instr

/-- The inputs of the next tick, where the list gives none: no host action and the line high (log entry 13). -/
def listedInput (s : State) : Input := s.inputs.headD (quietInput true)

/-- The next tick's inputs replaced. -/
def State.withInput (s : State) (i : Input) : State := { s with inputs := i :: s.inputs.tail }

/-- The next tick has no reset and no CMD write. -/
def State.withQuietTick (s : State) : State :=
  s.withInput { listedInput s with rst := false, regWe := false }

/-- The next tick has no reset, no CMD write, and the given level on the line. -/
def State.withLevel (s : State) (line : Bool) : State :=
  s.withInput { listedInput s with rst := false, regWe := false, lineIn := line }

/-- The state in which the next tick captures frame `f`: BIT_LOW, bit 39 pending with a width that decodes to `f[0]`, the
line low (43_bit_decoder.md R121, R124). -/
def State.withCapture (s : State) (f : Frame) : State :=
  { s.withLevel false with
    ph := .bitLow
    bitIdx := 39
    frame := f
    tmr := if f.getLsbD 0 then 50 else 0 }

/-- The state in which the next tick ends a READ with the given result. -/
def State.withResult (s : State) : ResultCode → State
  | .ok => s.withCapture 0x0000000000
  | .notInitialized =>
    { s.withInput (inputWithCmd { listedInput s with rst := false } 2) with ph := .idle, initialized := false }
  | .timeout => { s.withLevel true with ph := .ackLow, tmr := 200 }
  | .checksumError => s.withCapture 0x0000000002
  | .invalidData => s.withCapture 0x03E90000EC

/-- The state in which the next tick is that of a READ held by the gate in the given pacing state. -/
def State.withPaceState (s : State) : PaceState → State
  | .neverRead => { s.withQuietTick with ph := .paceWait, hasRead := false, paceCnt := 0 }
  | .ready => { s.withQuietTick with ph := .paceWait, hasRead := true, paceCnt := 0 }
  | .mustWait => { s.withQuietTick with ph := .paceWait, hasRead := true, paceCnt := 1 }

/-- The state whose next tick runs the coded word. A phase, result or pacing code that names nothing leaves the state as
it is: no register can hold it. -/
def State.withEncoded (s : State) : Encoded → State
  | .cmd w => s.withInput (inputWithCmd { listedInput s with rst := false } w)
  | .phase c =>
    match decodePhase c with
    | .ok p => { s.withQuietTick with ph := p }
    | .error _ => s
  | .result c =>
    match decodeResult c with
    | .ok r => s.withResult r
    | .error _ => s
  | .paceState c =>
    match decodePaceState c with
    | .ok p => s.withPaceState p
    | .error _ => s
  | .frame f => s.withCapture f

end Sys2Proof.Machine
end

