-- ==== Sys2Proof/Machine/Step.lean ====
section
/-! DEFINITION. The step: one tick of one microsecond (00_scope.md R4, 40_commands.md R80), the parameters at their defaults. -/

namespace Sys2Proof.Machine

/-- `S(t+1) = Step(S(t), In(t))`: reset beats everything (70_reset_and_hazards.md R200), otherwise the tick runs the
instruction it fetches. -/
def step (s : State) : Host.Outcome State Fault Refusal :=
  if s.input.rst then .next (resetTick s) else exec (fetch s) s

/-- The state whose very next step runs the table word `w` of `nbits` bits (log entry 13). -/
def State.withFetchWord (s : State) (nbits w : Nat) : State :=
  match encodedOfTable nbits w with
  | some e => s.withEncoded e
  | none => s

end Sys2Proof.Machine
end

