-- ==== Sys2Proof/Machine/Parametric.lean ====
section
/-! DEFINITION. `Step` with its parameters as arguments (00_scope.md R7, 92_eei_decisions.md D2, D10, D23, D25): the block
with any timing and range constants. `exec` and `step` are these at the defaults (Laws/Step.lean). -/

namespace Sys2Proof.Machine

/-- The meaning of an instruction for a block with parameters `p`. -/
def execWith (p : Config.Params) (i : Instr) (s : State) : Out :=
  match i with
  | .nop g => execNop g s p
  | .init pin gh gl => execInit pin gh gl s p
  | .read g => execRead g s p
  | .rsvd g => execRsvd g s p
  | .idle => execIdle s p
  | .paceWait => execPaceWait s p
  | .startLow => execStartLow s p
  | .startHigh => execStartHigh s p
  | .ackLow => execAckLow s p
  | .ackHigh => execAckHigh s p
  | .dataLow => execDataLow s p
  | .bitHigh => execBitHigh s p
  | .bitLow => execBitLow s p
  | .ok => execOk s p
  | .notInitialized => execNotInitialized s p
  | .timeout => execTimeout s p
  | .checksumError => execChecksumError s p
  | .invalidData => execInvalidData s p
  | .neverRead => execNeverRead s p
  | .ready => execReady s p
  | .mustWait => execMustWait s p
  | .frame h n m c => execFrame h n m c s p

/-- `Step(S(t), In(t))` of a block with parameters `p` (00_scope.md R4, R7, 40_commands.md R80). No step changes `p`. -/
def stepWith (p : Config.Params) (s : State) : Out :=
  if s.input.rst then .next (resetTick s) else execWith p (fetch s) s

end Sys2Proof.Machine
end

