-- ==== Sys2Proof/Machine/Port.lean ====
section
/-! DEFINITION. The host's side: register reads (10_state.md R26 to R32, 20_memory.md R41, R49), what a host takes from a
finished READ (30_encoding.md R73, 00_scope.md R9), and the Reading as exact rationals (44_validator.md R146). -/

namespace Sys2Proof.Machine

/-- `RegRead(k)`, a function of S(t) (20_memory.md R41): CMD reads 0, STATUS, TEMP, HUM, PACE, PIN, and 0 for 6 and 7.
PACE is exact for a `pace_cnt` of up to 32 bits (log entry 15). -/
def State.regRead (s : State) (k : RegIndex) : Word :=
  match k.toNat with
  | 1 => s.status
  | 2 => s.tempX10.signExtend 32
  | 3 => s.humX10.zeroExtend 32
  | 4 => BitVec.ofNat 32 s.paceCnt
  | 5 => s.pin.zeroExtend 32
  | _ => 0

/-- `reg_rdata(t)`: the read of the tick's own index, from S(t) also in the tick of a write (20_memory.md R41). -/
def State.regRdata (s : State) : Word := s.regRead s.input.regAddr

/-- `WAIT` is over: `BUSY = 0` and `DONE = 1` (30_encoding.md R73, 20_memory.md R51). -/
def State.waitOver (s : State) : Bool := !s.busy && s.done

/-- What the source's `read()` returns once WAIT is over: the result, and the Reading only on OK (30_encoding.md R73,
40_commands.md R90). -/
def State.readReturn (s : State) : ResultCode × Option (BitVec 16 × BitVec 16) :=
  (s.result, if s.result = .ok then some (s.tempX10, s.humX10) else none)

/-- The temperature in degrees Celsius, exact (44_validator.md R146). -/
def State.celsius (s : State) : ℚ := (s.tempX10.toInt : ℚ) / 10

/-- The relative humidity in percent, exact (44_validator.md R146). -/
def State.percent (s : State) : ℚ := (s.humX10.toNat : ℚ) / 10

/-- What one observes of the block in a tick (00_scope.md R9). -/
structure Observation where
  result : ResultCode
  tempX10 : BitVec 16
  humX10 : BitVec 16
  lineOe : Bool
  lineOut : Bool
  paceCnt : Nat
deriving DecidableEq, Repr

/-- The observation of a state (00_scope.md R9). -/
def State.observe (s : State) : Observation where
  result := s.result
  tempX10 := s.tempX10
  humX10 := s.humX10
  lineOe := s.lineOe
  lineOut := s.lineOut
  paceCnt := s.paceCnt

end Sys2Proof.Machine
end

