-- ==== Sys2Proof/Safety.lean ====
section
/-! DEFINITION. The terms claims are stated in: runs of ticks, acceptance and capture, and the invariants of
10_state.md R33 and of the rules beside it. -/

namespace Sys2Proof.Machine

/-! ## Runs -/

/-- `k` ticks, stopping at the first stop. -/
def ticks : Nat → State → Out
  | 0, s => .next s
  | k + 1, s =>
    match step s with
    | .next s' => ticks k s'
    | .fault e => .fault e
    | .refused r => .refused r

/-- No reset in the coming `n` ticks. -/
def State.noResetFor (s : State) (n : Nat) : Prop := ∀ j, j < n → (s.inputAt j).rst = false

/-- Every counter is in the range the rules reach: outside it no rule applies (93_implementation_defined.md U10). -/
def State.inRange (s : State) : Prop := s.tmr ≤ 17999 ∧ s.bitIdx.toNat ≤ 39 ∧ s.paceCnt ≤ 1999999

/-! ## Events of a tick -/

/-- A command is accepted this tick (40_commands.md R81). -/
def State.accepts (s : State) : Prop := s.input.rst = false ∧ cmdWrite s.input = true ∧ s.ph = .idle

/-- An INIT is accepted this tick (40_commands.md R81, R83). -/
def State.acceptsInit (s : State) : Prop := s.accepts ∧ s.input.regWdata.extractLsb' 0 2 = 1

/-- A READ is accepted this tick (40_commands.md R81, R84, R85). -/
def State.acceptsRead (s : State) : Prop := s.accepts ∧ s.input.regWdata.extractLsb' 0 2 = 2

/-- This is a capture tick (44_validator.md R140, 43_bit_decoder.md R124). -/
def State.captures (s : State) : Prop :=
  s.input.rst = false ∧ s.ph = .bitLow ∧ s.bitIdx = 39 ∧ s.input.lineIn = false

/-- The frame a capture tick completes: the 39 bits stored and the bit just decoded (44_validator.md R140). -/
def State.capturedFrame (s : State) : Frame :=
  frameBitWrite s.frame 39 (pulseBit Config.params.bitThresholdUs s.tmr)

/-- The target level of a wait phase (41_waiter.md R100). -/
def waitTarget : Phase → Option Bool
  | .ackLow => some false
  | .ackHigh => some true
  | .dataLow => some false
  | .bitHigh => some true
  | .bitLow => some false
  | .idle | .paceWait | .startLow | .startHigh => none

/-! ## Invariants -/

/-- 10_state.md R33 (b) to (j), with the range of `tmr` that R16 gives for every phase. (a) and (g) hold of every state by
the types of `ph` and `result` (log entry 6). -/
structure State.Inv (s : State) : Prop where
  /-- (b) -/
  neverReadOpen : s.hasRead = false → s.paceCnt = 0
  /-- (c) -/
  paceBound : s.paceCnt ≤ 1999999
  /-- (d) -/
  bitBound : s.bitIdx.toNat ≤ 39
  /-- (e) -/
  busyMode : s.ph ≠ .idle → s.initialized = true ∧ s.done = false
  /-- (f), START_LOW -/
  timerLow : s.ph = .startLow → s.tmr ≤ 17999
  /-- (f), START_HIGH -/
  timerHigh : s.ph = .startHigh → s.tmr ≤ 29
  /-- (f), wait phases -/
  timerWait : phaseIsWait s.ph = true → s.tmr ≤ 200
  /-- R16, every phase -/
  timerBound : s.tmr ≤ 17999
  /-- (h), humidity -/
  humBound : s.humX10.toNat ≤ 1000
  /-- (h), temperature -/
  tempBound : -400 ≤ s.tempX10.toInt ∧ s.tempX10.toInt ≤ 800
  /-- (i) -/
  driveMode : s.lineOe = true → s.initialized = true
  /-- (j) -/
  gateOpen : s.ph ≠ .idle → s.ph ≠ .paceWait → s.paceCnt = 0

/-- "A cell not yet written in the current READ holds 0" (20_memory.md R45; 10_state.md R18, 42_handshake.md R115, R116):
before the first bit the frame and the index are 0, and in the bit phases every cell from `bit_idx` on is 0. -/
structure State.FreshFrame (s : State) : Prop where
  handshake : s.ph = .startLow ∨ s.ph = .startHigh ∨ s.ph = .ackLow ∨ s.ph = .ackHigh ∨ s.ph = .dataLow →
    s.frame = 0 ∧ s.bitIdx = 0
  bits : s.ph = .bitHigh ∨ s.ph = .bitLow →
    s.bitIdx.toNat ≤ 39 ∧ ∀ i, s.bitIdx.toNat ≤ i → i ≤ 39 → s.frame.getLsbD (39 - i) = false

/-- Uninitialized mode (60_exceptions.md R188): nothing but the record of a failed READ and `cmd_fault` differs from
ResetState. -/
structure State.UninitClean (s : State) : Prop where
  pin : s.initialized = false → s.pin = 0
  gate : s.initialized = false → s.hasRead = false ∧ s.paceCnt = 0
  sequencer : s.initialized = false → s.ph = .idle ∧ s.tmr = 0 ∧ s.bitIdx = 0 ∧ s.frame = 0
  reading : s.initialized = false → s.tempX10 = 0 ∧ s.humX10 = 0
  outcome : s.initialized = false →
    (s.done = false ∧ s.result = .ok) ∨ (s.done = true ∧ s.result = .notInitialized)

/-- A READ that shows OK shows the Reading of a frame that passed both checks (70_reset_and_hazards.md R207, R209). -/
def State.OkIsValid (s : State) : Prop :=
  s.done = true → s.result = .ok →
    checksumOk s.frame = true ∧ rangeOk Config.params s.frame = true ∧
      s.humX10 = humRaw s.frame ∧ s.tempX10 = tempTenths s.frame

/-! ## Transitions -/

/-- The table of 10_state.md R15, row by row, for a tick without reset. -/
def State.mayEnter (s : State) (q : Phase) : Prop :=
  (s.ph = .idle ∧ q = .paceWait ∧ s.acceptsRead ∧ s.initialized = true) ∨
  (s.ph = .idle ∧ q = .idle ∧ ¬ (s.acceptsRead ∧ s.initialized = true)) ∨
  (s.ph = .paceWait ∧ q = .startLow ∧ s.paceCnt = 0) ∨
  (s.ph = .paceWait ∧ q = .paceWait ∧ s.paceCnt ≠ 0) ∨
  (s.ph = .startLow ∧ q = .startHigh ∧ s.tmr = 17999) ∨
  (s.ph = .startLow ∧ q = .startLow ∧ s.tmr ≠ 17999) ∨
  (s.ph = .startHigh ∧ q = .ackLow ∧ s.tmr = 29) ∨
  (s.ph = .startHigh ∧ q = .startHigh ∧ s.tmr ≠ 29) ∨
  (s.ph = .ackLow ∧ q = .ackHigh ∧ s.input.lineIn = false) ∨
  (s.ph = .ackHigh ∧ q = .dataLow ∧ s.input.lineIn = true) ∨
  (s.ph = .dataLow ∧ q = .bitHigh ∧ s.input.lineIn = false) ∨
  (s.ph = .bitHigh ∧ q = .bitLow ∧ s.input.lineIn = true) ∨
  (s.ph = .bitLow ∧ q = .bitHigh ∧ s.input.lineIn = false ∧ s.bitIdx.toNat < 39) ∨
  (s.ph = .bitLow ∧ q = .idle ∧ s.input.lineIn = false ∧ s.bitIdx.toNat = 39) ∨
  (∃ target, waitTarget s.ph = some target ∧ s.input.lineIn ≠ target ∧
    ((q = .idle ∧ s.tmr = 200) ∨ (q = s.ph ∧ s.tmr < 200)))

/-! ## Two runs compared -/

/-- Two states that agree in every element of the block but `cmd_fault`. -/
def State.sameButFault (s u : State) : Prop :=
  { s with cmdFault := false, inputs := [] } = { u with cmdFault := false, inputs := [] }

/-! ## Duration -/

/-- Ticks the wait phases and bits after `ph` can still take at most, 201 a wait (41_waiter.md R107, 70_reset_and_hazards.md R213). -/
def State.ticksLeft (s : State) : Nat :=
  match s.ph with
  | .idle => 0
  | .paceWait => s.paceCnt + 1 + 18000 + 30 + 83 * 201
  | .startLow => (18000 - s.tmr) + 30 + 83 * 201
  | .startHigh => (30 - s.tmr) + 83 * 201
  | .ackLow => (201 - s.tmr) + 82 * 201
  | .ackHigh => (201 - s.tmr) + 81 * 201
  | .dataLow => (201 - s.tmr) + 80 * 201
  | .bitHigh => (201 - s.tmr) + (79 - 2 * s.bitIdx.toNat) * 201
  | .bitLow => (201 - s.tmr) + (78 - 2 * s.bitIdx.toNat) * 201

end Sys2Proof.Machine
end

