-- ==== Sys2Proof/Certificates/Slice0/Obligations.lean ====
section
/-! DEFINITION. The statements for the provers. `elapse s` is the tick's part 1 (`ElapseOnlyCountsDown` says what it does);
`s.inRange` says that every counter is within the range the rules reach (93_implementation_defined.md U10), and
`RunningStatesAreInRange` shows that the invariant gives it. `exec` and `step` are `execWith` and `stepWith` at the defaults of
00_scope.md R7 (`StepRunsTheDecodedInstruction`); a clause `for p` says what other constants do. -/

open Sys2Proof Sys2Proof.Machine

/-! ## Encoding -/

/-- Decoding the word of an instruction gives it back, every operand at every value (30_encoding.md R60 to R67, R71); the
ignored bits of a command word are operands by the model's choice (log entry 3). -/
def Obligations.DecodeInvertsEncode : Prop :=
  ∀ i : Instr, decode (encode i) = .ok i

/-- Encoding what was decoded gives the word back. The MODEL'S CHOICE (log entry 3): the ignored bits of a command word are
operands of the instruction, so no two words decode to one `Instr`; 30_encoding.md R61 and R63 make all words with one `OP`
(and `PIN`) the same command, which `IgnoredBitsNeverMatter` states. -/
def Obligations.EncodeInvertsDecode : Prop :=
  ∀ (e : Encoded) (i : Instr), decode e = .ok i → encode i = e

/-- A word decodes exactly when its code is one the tables define (30_encoding.md R65, R66, R67). -/
def Obligations.DecodeAcceptsDefinedCodes : Prop :=
  ∀ e : Encoded, (∃ i, decode e = .ok i) ↔ e.wellFormed = true

/-- Words written out from the spec's encodings decode to what they stand for (30_encoding.md R61, R66, R71; the frame is
the source's example S7). -/
def Obligations.WrittenOutWordsDecode : Prop :=
  decode (.cmd 0x00000000#32) = .ok (.nop 0) ∧
  decode (.cmd 0x00000401#32) = .ok (.init 4 0 0) ∧
  decode (.cmd 0x00000002#32) = .ok (.read 0) ∧
  decode (.cmd 0x00000003#32) = .ok (.rsvd 0) ∧
  decode (.phase 0b1000#4) = .ok .bitLow ∧
  decode (.phase 0b0001#4) = .ok .paceWait ∧
  decode (.result 0b010#3) = .ok .timeout ∧
  decode (.paceState 0b10#2) = .ok .mustWait ∧
  decode (.frame 0x019000C859#40) = .ok (.frame 0x0190 false 0x00C8 0x59) ∧
  decode (.frame 0x028C803240#40) = .ok (.frame 0x028C true 0x0032 0x40)

/-- The low two bits of a command word choose the command (30_encoding.md R61), and INIT takes bits [15:8] (R62). -/
def Obligations.LowBitsChooseTheCommand : Prop :=
  ∀ w : Word,
    (w.extractLsb' 0 2 = 0 → ∃ g, decode (.cmd w) = .ok (.nop g)) ∧
    (w.extractLsb' 0 2 = 1 → ∃ a b, decode (.cmd w) = .ok (.init (w.extractLsb' 8 8) a b)) ∧
    (w.extractLsb' 0 2 = 2 → ∃ g, decode (.cmd w) = .ok (.read g)) ∧
    (w.extractLsb' 0 2 = 3 → ∃ g, decode (.cmd w) = .ok (.rsvd g))

/-- The ignored bits of a command word never change what the command does (30_encoding.md R63). -/
def Obligations.IgnoredBitsNeverMatter : Prop :=
  ∀ (s : State) (w w' : Word),
    w.extractLsb' 0 2 = w'.extractLsb' 0 2 →
    (w.extractLsb' 0 2 = 1 → w.extractLsb' 8 8 = w'.extractLsb' 8 8) →
    exec (decodeCmd w) s = exec (decodeCmd w') s

/-! ## The tick -/

/-- A tick without reset runs the decoded instruction: the command word where a CMD write is presented, else the phase
(40_commands.md R80; log entry 12). The same for every value of the parameters, and `step` is `stepWith` at the defaults
(00_scope.md R7). -/
def Obligations.StepRunsTheDecodedInstruction : Prop :=
  ∀ (s : State) (i : Instr), s.input.rst = false →
    ((s.input.regWe = true ∧ s.input.regAddr = 0 ∧ decode (.cmd s.input.regWdata) = .ok i) ∨
      (¬ (s.input.regWe = true ∧ s.input.regAddr = 0) ∧ decode (.phase s.ph.code) = .ok i)) →
    step s = exec i s ∧ step s = stepWith Config.params s ∧ exec i s = execWith Config.params i s ∧
      ∀ p : Config.Params, stepWith p s = execWith p i s

/-- A state made to run a table word next does run the decoded instruction (the model's own device, log entry 13). -/
def Obligations.TableWordRunsNext : Prop :=
  ∀ (s : State) (nbits w : Nat) (i : Instr), decodeTableWord nbits w = some i →
    step (s.withFetchWord nbits w) = exec i (s.withFetchWord nbits w)

/-- Part 1 of a tick changes the pacing counter, which counts down and stops at 0 (45_pacing.md R161), and the model's own
two fields (log entries 1 and 2); the thirteen elements are otherwise as before. -/
def Obligations.ElapseOnlyCountsDown : Prop :=
  ∀ s : State,
    (elapse s).paceCnt = s.paceCnt - 1 ∧
    { elapse s with paceCnt := s.paceCnt, inputs := s.inputs, tick := s.tick } = s ∧
    (elapse s).inputs = s.inputs.tail ∧ (elapse s).tick = s.tick + 1

/-- A reset beats everything in its tick (70_reset_and_hazards.md R200). -/
def Obligations.ResetBeatsEverything : Prop :=
  ∀ s : State, s.input.rst = true →
    step s = .next { State.reset with inputs := s.inputs.tail, tick := s.tick + 1 }

/-- The reset values and the outputs after reset (10_state.md R35). -/
def Obligations.ResetValues : Prop :=
  let s := State.reset
  s.initialized = false ∧ s.pin = 0 ∧ s.hasRead = false ∧ s.paceCnt = 0 ∧ s.ph = .idle ∧ s.tmr = 0 ∧ s.bitIdx = 0 ∧
  s.frame = 0 ∧ s.result.code = 0 ∧ s.done = false ∧ s.tempX10 = 0 ∧ s.humX10 = 0 ∧ s.cmdFault = false ∧
  s.busy = false ∧ s.lineOe = false ∧ s.lineOut = true ∧ s.pullEn = false ∧ s.pinSel = 0 ∧ s.regRead 1 = 0x00000000

/-- With every counter in range each instruction answers a next state (93_implementation_defined.md U10 names the only
stops, 60_exceptions.md R175). -/
def Obligations.EveryInstructionCompletes : Prop :=
  ∀ (i : Instr) (s : State), s.inRange → ∃ t, exec i s = .next t

/-- Outside the range of its counters the machine is stuck, under a name that says which counter
(93_implementation_defined.md U10; log entry 5). -/
def Obligations.OutOfRangeIsStuck : Prop :=
  ∀ (i : Instr) (s : State),
    (17999 < s.tmr → exec i s = .fault .timerOutOfRange) ∧
    (s.tmr ≤ 17999 → 39 < s.bitIdx.toNat → exec i s = .fault .bitIndexOutOfRange) ∧
    (s.tmr ≤ 17999 → s.bitIdx.toNat ≤ 39 → 1999999 < s.paceCnt →
      exec i s = .fault .paceCountOutOfRange)

/-! ## Commands -/

/-- NOP, `OP = 0`: the tick is what it would have been with no write, busy or not, and `cmd_fault` is not set
(40_commands.md R82). -/
def Obligations.NopHasNoEffect : Prop :=
  ∀ (g : BitVec 30) (s : State), s.inRange →
    decode (.cmd (encodeCmd 0 g)) = .ok (.nop g) ∧
    ∃ t, exec (.nop g) s = .next t ∧ exec s.ph.instr s = .next t ∧ t.cmdFault = s.cmdFault

/-- INIT, `OP = 1`, accepted in IDLE writes four elements and nothing else (40_commands.md R83), initialized or not; the
pull-up is on, the identifier is driven and the line is released from the next tick. -/
def Obligations.InitAccepted : Prop :=
  ∀ (pin : Byte) (a : BitVec 16) (b : BitVec 6) (s : State), s.inRange → s.ph = .idle →
    decode (.cmd (encodeInit pin a b)) = .ok (.init pin a b) ∧
    ∃ t, exec (.init pin a b) s = .next t ∧
      t = { elapse s with pin := pin, initialized := true, hasRead := false, paceCnt := 0 } ∧
      t.pullEn = true ∧ t.pinSel = pin ∧ t.lineOe = false

/-- READ accepted in Initialized mode (40_commands.md R84): `ph' <- PACE_WAIT`, `done' <- 0`, nothing else. -/
def Obligations.ReadAccepted : Prop :=
  ∀ (g : BitVec 30) (s : State), s.inRange → s.ph = .idle → s.initialized = true →
    exec (.read g) s = .next { elapse s with ph := .paceWait, done := false }

/-- READ in Uninitialized mode completes at once with NotInitialized (40_commands.md R85); nothing drives the line, and the
READ repeated gives the same elements again. -/
def Obligations.ReadUninitialized : Prop :=
  ∀ (g g' : BitVec 30) (s : State), s.inRange → s.ph = .idle → s.initialized = false →
    decode (.cmd (encodeCmd 2 g)) = .ok (.read g) ∧
    ∃ t, exec (.read g) s = .next t ∧
      t = { elapse s with result := .notInitialized, done := true } ∧
      t.busy = false ∧ t.lineOe = false ∧ t.pullEn = false ∧
      t.hasRead = s.hasRead ∧ (s.paceCnt = 0 → t.paceCnt = 0) ∧
      exec (.read g') t = .next (elapse t)

/-- RSVD, `OP = 3`, sets `cmd_fault` in any phase and does nothing else (40_commands.md R86). -/
def Obligations.RsvdSetsCmdFault : Prop :=
  ∀ (g : BitVec 30) (s : State), s.inRange →
    decode (.cmd (encodeCmd 3 g)) = .ok (.rsvd g) ∧
    ∃ t, exec s.ph.instr s = .next t ∧ exec (.rsvd g) s = .next { t with cmdFault := true }

/-- A command presented while busy is dropped and recorded, and the READ goes on as if it had not been made
(40_commands.md R87). -/
def Obligations.BusyCommandIsDropped : Prop :=
  ∀ (s t : State), s.ph ≠ .idle → exec s.ph.instr s = .next t →
    (∀ g, exec (.nop g) s = .next t) ∧
    (∀ pin a b, exec (.init pin a b) s = .next { t with cmdFault := true }) ∧
    (∀ g, exec (.read g) s = .next { t with cmdFault := true }) ∧
    (∀ g, exec (.rsvd g) s = .next { t with cmdFault := true })

/-! ## Phases -/

/-- IDLE: only the countdown changes state; the line is released and the block is not busy (40_commands.md R88). -/
def Obligations.IdleOnlyCountsDown : Prop :=
  ∀ s : State, s.inRange →
    exec .idle s = .next (elapse s) ∧
    (s.ph = .idle → s.lineOe = false ∧ s.lineOut = true ∧ s.busy = false)

/-- PACE_WAIT leaves at `pace_cnt = 0` with the frame and the index cleared, and stays otherwise (45_pacing.md R162). -/
def Obligations.PaceWaitHoldsUntilZero : Prop :=
  ∀ s : State, s.inRange →
    (s.paceCnt = 0 → exec .paceWait s = .next { elapse s with ph := .startLow, tmr := 0, frame := 0, bitIdx := 0 }) ∧
    (s.paceCnt ≠ 0 → exec .paceWait s = .next (elapse s)) ∧
    (s.ph = .paceWait → s.lineOe = false ∧ s.lineOut = true ∧ s.busy = true)

/-- What the gate does with a held READ in each of its three states (45_pacing.md section 1, 10_state.md R14); that these
rows run a tick of their own is the model's reading (log entry 12). -/
def Obligations.GateStatesActOnAHeldRead : Prop :=
  ∀ s : State, s.inRange →
    exec .neverRead s = .next { elapse s with ph := .startLow, tmr := 0, frame := 0, bitIdx := 0 } ∧
    exec .ready s = .next { elapse s with ph := .startLow, tmr := 0, frame := 0, bitIdx := 0 } ∧
    exec .mustWait s = .next (elapse s) ∧
    ((s.hasRead = false → s.paceCnt = 0) → exec .paceWait s = exec s.paceState.instr s)

/-- START_LOW and START_HIGH hold for their counts and then enter the next phase with the timer cleared
(42_handshake.md R110, R111); the last clause is the same for parameters `p` (00_scope.md R7). `p` may give a duration of 0
ticks, of which the rules do not speak: there `- 1` stops at 0 and the phase lasts one tick, as for a duration of 1. That,
and the largest `tmr` in range for such `p`, is the MODEL'S CHOICE (log entry 4), no rule's. -/
def Obligations.HoldPhasesCount : Prop :=
  (∀ s : State, s.inRange →
    (s.tmr = 17999 → exec .startLow s = .next { elapse s with ph := .startHigh, tmr := 0 }) ∧
    (s.tmr ≠ 17999 → exec .startLow s = .next { elapse s with tmr := s.tmr + 1 }) ∧
    (s.tmr = 29 → exec .startHigh s = .next { elapse s with ph := .ackLow, tmr := 0 }) ∧
    (s.tmr ≠ 29 → exec .startHigh s = .next { elapse s with tmr := s.tmr + 1 }) ∧
    (s.ph = .startLow → s.lineOe = true ∧ s.lineOut = false) ∧
    (s.ph = .startHigh → s.lineOe = true ∧ s.lineOut = true)) ∧
  ∀ (p : Config.Params) (s : State), s.rangeFault p = none →
    (s.tmr = p.startLowUs - 1 → execWith p .startLow s = .next { elapse s with ph := .startHigh, tmr := 0 }) ∧
    (s.tmr ≠ p.startLowUs - 1 → execWith p .startLow s = .next { elapse s with tmr := s.tmr + 1 }) ∧
    (s.tmr = p.startHighUs - 1 → execWith p .startHigh s = .next { elapse s with ph := .ackLow, tmr := 0 }) ∧
    (s.tmr ≠ p.startHighUs - 1 → execWith p .startHigh s = .next { elapse s with tmr := s.tmr + 1 })

/-- The wait step of ACK_LOW, ACK_HIGH, DATA_LOW and BIT_HIGH (41_waiter.md R101, 42_handshake.md R113 to R115,
43_bit_decoder.md R120): the sample first, then the timeout at 200, else the count; the last clause is the same for
parameters `p` (00_scope.md R7). -/
def Obligations.WaitPhasesStep : Prop :=
  ∀ (s : State) (i : Instr) (target : Bool) (q : Phase),
    ((i = .ackLow ∧ target = false ∧ q = .ackHigh) ∨ (i = .ackHigh ∧ target = true ∧ q = .dataLow) ∨
      (i = .dataLow ∧ target = false ∧ q = .bitHigh) ∨ (i = .bitHigh ∧ target = true ∧ q = .bitLow)) →
    (s.inRange →
      (s.input.lineIn = target → exec i s = .next { elapse s with ph := q, tmr := 0 }) ∧
      (s.input.lineIn ≠ target → s.tmr = 200 →
        exec i s = .next { elapse s with result := .timeout, done := true, ph := .idle }) ∧
      (s.input.lineIn ≠ target → s.tmr ≠ 200 → exec i s = .next { elapse s with tmr := s.tmr + 1 })) ∧
    ∀ p : Config.Params, s.rangeFault p = none →
      (s.input.lineIn = target → execWith p i s = .next { elapse s with ph := q, tmr := 0 }) ∧
      (s.input.lineIn ≠ target → s.tmr = p.edgeTimeoutUs →
        execWith p i s = .next { elapse s with result := .timeout, done := true, ph := .idle }) ∧
      (s.input.lineIn ≠ target → s.tmr ≠ p.edgeTimeoutUs → execWith p i s = .next { elapse s with tmr := s.tmr + 1 })

/-- BIT_LOW for bits 0 to 38: the bit is 1 exactly when the pulse was more than 50 ticks wide, it goes to
`frame[39 - bit_idx]`, and no other cell changes (43_bit_decoder.md R121 to R123, R125); the last clause is the same for
parameters `p` (00_scope.md R7). -/
def Obligations.BitLowStoresTheBit : Prop :=
  (∀ s : State, s.inRange → s.input.lineIn = false → s.bitIdx.toNat < 39 →
    ∃ f : Frame,
      exec .bitLow s = .next { elapse s with frame := f, bitIdx := s.bitIdx + 1, ph := .bitHigh, tmr := 0 } ∧
      ∀ j, j < 40 →
        f.getLsbD j = if j = 39 - s.bitIdx.toNat then decide (51 ≤ s.tmr + 1) else s.frame.getLsbD j) ∧
  ∀ (p : Config.Params) (s : State), s.rangeFault p = none → s.input.lineIn = false → s.bitIdx.toNat < 39 →
    ∃ f : Frame,
      execWith p .bitLow s = .next { elapse s with frame := f, bitIdx := s.bitIdx + 1, ph := .bitHigh, tmr := 0 } ∧
      ∀ j, j < 40 → f.getLsbD j =
        if j = 39 - s.bitIdx.toNat then decide (p.bitThresholdUs < s.tmr + 1) else s.frame.getLsbD j

/-- BIT_LOW for bit 39 is the capture tick of the frame made of the 39 bits stored and the bit just decoded
(43_bit_decoder.md R124, 44_validator.md R140). -/
def Obligations.BitLowCapturesTheFrame : Prop :=
  ∀ (s : State) (f : Frame) (i : Instr), s.inRange → s.input.lineIn = false → s.bitIdx.toNat = 39 →
    (∀ j, j < 40 → f.getLsbD j = if j = 0 then decide (51 ≤ s.tmr + 1) else s.frame.getLsbD j) →
    decode (.frame f) = .ok i → exec .bitLow s = exec i s

/-- BIT_LOW with the line high: Timeout at 200, else the count (41_waiter.md R101, 43_bit_decoder.md R126). -/
def Obligations.BitLowTimesOut : Prop :=
  ∀ s : State, s.inRange → s.input.lineIn = true →
    (s.tmr = 200 → exec .bitLow s = .next { elapse s with result := .timeout, done := true, ph := .idle }) ∧
    (s.tmr ≠ 200 → exec .bitLow s = .next { elapse s with tmr := s.tmr + 1 })

/-! ## The frame -/

/-- A frame whose checksum fails: the capture is recorded, ChecksumError, and the Reading is kept (44_validator.md R141,
60_exceptions.md R178). The sum is over the bytes of the fields of 30_encoding.md R71.
That the FRAME row is this tick in every state, not only in a capture tick, is the MODEL'S CHOICE (log entry 12);
`BitLowCapturesTheFrame` ties it to the capture tick of a run. -/
def Obligations.FrameChecksumError : Prop :=
  ∀ (h : BitVec 16) (n : Bool) (m : BitVec 15) (c : Byte) (s : State), s.inRange →
    (h.toNat / 256 + h.toNat % 256 + (n.toNat * 128 + m.toNat / 256) + m.toNat % 256) % 256 ≠ c.toNat →
    exec (.frame h n m c) s = .next
      { elapse s with
        hasRead := true, paceCnt := 1999999, frame := encodeFrame h n m c, tmr := 0,
        result := .checksumError, done := true, ph := .idle }

/-- A frame that passes the checksum and fails the range check: InvalidData (44_validator.md R144, 60_exceptions.md R179).
That the FRAME row is this tick in every state, not only in a capture tick, is the MODEL'S CHOICE (log entry 12);
`BitLowCapturesTheFrame` ties it to the capture tick of a run. -/
def Obligations.FrameInvalidData : Prop :=
  ∀ (h : BitVec 16) (n : Bool) (m : BitVec 15) (c : Byte) (s : State), s.inRange →
    (h.toNat / 256 + h.toNat % 256 + (n.toNat * 128 + m.toNat / 256) + m.toNat % 256) % 256 = c.toNat →
    (1000 < h.toNat ∨ (n = false ∧ 800 < m.toNat) ∨ (n = true ∧ 400 < m.toNat)) →
    exec (.frame h n m c) s = .next
      { elapse s with
        hasRead := true, paceCnt := 1999999, frame := encodeFrame h n m c, tmr := 0,
        result := .invalidData, done := true, ph := .idle }

/-- A frame that passes both checks: OK, and the Reading is written, sign and magnitude in, two's complement out
(44_validator.md R142, R143, R145, R147).
That the FRAME row is this tick in every state, not only in a capture tick, is the MODEL'S CHOICE (log entry 12);
`BitLowCapturesTheFrame` ties it to the capture tick of a run. -/
def Obligations.FrameOk : Prop :=
  ∀ (h : BitVec 16) (n : Bool) (m : BitVec 15) (c : Byte) (s : State), s.inRange →
    (h.toNat / 256 + h.toNat % 256 + (n.toNat * 128 + m.toNat / 256) + m.toNat % 256) % 256 = c.toNat →
    h.toNat ≤ 1000 → (n = false → m.toNat ≤ 800) → (n = true → m.toNat ≤ 400) →
    ∃ T : BitVec 16,
      exec (.frame h n m c) s = .next
        { elapse s with
          hasRead := true, paceCnt := 1999999, frame := encodeFrame h n m c, tmr := 0,
          humX10 := h, tempX10 := T, result := .ok, done := true, ph := .idle } ∧
      T.toInt = (if n then -(m.toNat : Int) else (m.toNat : Int))

/-- The five ways a READ ends (60_exceptions.md R175 to R182): `complete` writes the code, `done` and `ph`; the two errors
after a capture record it first; OK writes the Reading of the frame held. That these rows run a tick of their own, and that
this tick leaves `frame` and `tmr` as they are, is the MODEL'S CHOICE (log entries 12 and 16). The last clause is the load of
the capture for parameters `p` (00_scope.md R7); that an interval of 0 loads 0, and the largest `tmr` in range for such `p`, is
the MODEL'S CHOICE (log entry 4). -/
def Obligations.CompletionRows : Prop :=
  (∀ s : State, s.inRange →
    exec .notInitialized s = .next { elapse s with result := .notInitialized, done := true, ph := .idle } ∧
    exec .timeout s = .next { elapse s with result := .timeout, done := true, ph := .idle } ∧
    exec .checksumError s = .next
      { elapse s with hasRead := true, paceCnt := 1999999, result := .checksumError, done := true, ph := .idle } ∧
    exec .invalidData s = .next
      { elapse s with hasRead := true, paceCnt := 1999999, result := .invalidData, done := true, ph := .idle } ∧
    exec .ok s = .next
      { elapse s with
        hasRead := true, paceCnt := 1999999, humX10 := humRaw s.frame, tempX10 := tempTenths s.frame,
        result := .ok, done := true, ph := .idle }) ∧
  ∀ (p : Config.Params) (s : State), s.rangeFault p = none →
    execWith p .checksumError s = .next
      { elapse s with
        hasRead := true, paceCnt := p.minIntervalMs * 1000 - 1, result := .checksumError, done := true, ph := .idle }

/-! ## The register port -/

/-- The fields of STATUS, the reserved bits 0 (10_state.md R27). -/
def Obligations.StatusFields : Prop :=
  ∀ s : State,
    (s.regRead 1).getLsbD 0 = s.initialized ∧ (s.regRead 1).getLsbD 1 = s.busy ∧ (s.regRead 1).getLsbD 2 = s.done ∧
    (s.regRead 1).getLsbD 3 = s.cmdFault ∧ (s.regRead 1).extractLsb' 4 3 = s.result.code ∧
    (s.regRead 1).extractLsb' 7 1 = 0 ∧
    (s.regRead 1).extractLsb' 8 2 = (match s.paceState with | .neverRead => 0 | .ready => 1 | .mustWait => 2) ∧
    (s.regRead 1).extractLsb' 10 6 = 0 ∧ (s.regRead 1).extractLsb' 16 4 = s.ph.code ∧
    (s.regRead 1).extractLsb' 20 4 = 0 ∧ (s.regRead 1).extractLsb' 24 6 = s.bitIdx ∧
    (s.regRead 1).extractLsb' 30 2 = 0

/-- TEMP is sign-extended, HUM, PACE and PIN are zero-extended (10_state.md R28 to R31); CMD and the unmapped indices read
0 (R26, R32). PACE is exact while `pace_cnt` fits the register, as every value in range does (log entry 15). -/
def Obligations.RegisterReads : Prop :=
  ∀ s : State,
    (s.regRead 2).toInt = s.tempX10.toInt ∧ (s.regRead 3).toNat = s.humX10.toNat ∧
    (s.paceCnt < 2 ^ 32 → (s.regRead 4).toNat = s.paceCnt) ∧ (s.regRead 5).toNat = s.pin.toNat ∧
    s.regRead 0 = 0 ∧ s.regRead 6 = 0 ∧ s.regRead 7 = 0

/-- The outputs as functions of the state (10_state.md R24). -/
def Obligations.PadSignals : Prop :=
  ∀ s : State,
    (s.busy = true ↔ s.ph ≠ .idle) ∧ (s.lineOe = true ↔ s.ph = .startLow ∨ s.ph = .startHigh) ∧
    (s.lineOut = false ↔ s.ph = .startLow) ∧ s.pullEn = s.initialized ∧ s.pinSel = s.pin ∧
    s.regRdata = s.regRead s.input.regAddr

/-- The pacing state is a view of `has_read` and `pace_cnt`, shown in STATUS[9:8], with `remaining_ms = ceil(pace_cnt / 1000)`,
1 to 2000 in MustWait (10_state.md R14). -/
def Obligations.PacingStateView : Prop :=
  ∀ s : State, s.Inv →
    (s.paceState = .neverRead ↔ s.hasRead = false) ∧
    (s.paceState = .ready ↔ s.hasRead = true ∧ s.paceCnt = 0) ∧
    (s.paceState = .mustWait ↔ s.hasRead = true ∧ s.paceCnt ≠ 0) ∧
    ((s.regRead 1).extractLsb' 8 2 = 0 ↔ s.paceState = .neverRead) ∧
    ((s.regRead 1).extractLsb' 8 2 = 1 ↔ s.paceState = .ready) ∧
    ((s.regRead 1).extractLsb' 8 2 = 2 ↔ s.paceState = .mustWait) ∧ (s.regRead 1).extractLsb' 8 2 ≠ 3 ∧
    (s.paceState = .mustWait → 1 ≤ s.remainingMs ∧ s.remainingMs ≤ 2000) ∧
    (s.remainingMs - 1) * 1000 ≤ s.paceCnt ∧ s.paceCnt ≤ s.remainingMs * 1000 ∧
    (s.paceCnt ≠ 0 → (s.remainingMs - 1) * 1000 < s.paceCnt)

/-- A write to any index but CMD changes nothing in any phase (20_memory.md R44): the tick is that with no write. -/
def Obligations.OtherWritesAreIgnored : Prop :=
  ∀ s : State, s.input.regAddr ≠ 0 →
    step s = step (s.withInput { s.input with regWe := false })

/-- A register read has no side effect (20_memory.md R43): with no write presented, the index and the data do not matter. -/
def Obligations.ReadsHaveNoSideEffect : Prop :=
  ∀ (s : State) (k : RegIndex) (w : Word), s.input.regWe = false →
    step s = step (s.withInput { s.input with regAddr := k, regWdata := w })

/-- `line_in` is read only in the five wait phases, where `line_oe = 0` (10_state.md R25). -/
def Obligations.LineReadOnlyInWaitPhases : Prop :=
  (∀ (s : State) (b : Bool), phaseIsWait s.ph = false →
    step s = step (s.withInput { s.input with lineIn := b })) ∧
  (∀ s : State, phaseIsWait s.ph = true → s.lineOe = false)

/-! ## What a step may change -/

/-- The pacing counter counts down in every tick but a capture, which loads it, and an accepted INIT, which clears it
(45_pacing.md R161, R163, R165). -/
def Obligations.PaceCounterEveryTick : Prop :=
  ∀ s t : State, s.Inv → step s = .next t → s.input.rst = false →
    (s.captures → t.paceCnt = 1999999 ∧ t.hasRead = true) ∧
    (s.acceptsInit → t.paceCnt = 0 ∧ t.hasRead = false) ∧
    (¬ s.captures → ¬ s.acceptsInit → t.paceCnt = s.paceCnt - 1 ∧ t.hasRead = s.hasRead)

/-- `initialized` is set by an accepted INIT and cleared by reset, and by nothing else; `pin` is written by INIT alone
(10_state.md R10, R11). -/
def Obligations.ModeLeftOnlyByReset : Prop :=
  ∀ s t : State, step s = .next t → s.input.rst = false →
    (t.initialized = true ↔ s.initialized = true ∨ s.acceptsInit) ∧
    (¬ s.acceptsInit → t.pin = s.pin) ∧
    (s.acceptsInit → t.pin = s.input.regWdata.extractLsb' 8 8)

/-- `cmd_fault` is sticky, is set exactly by a command other than NOP while busy or by OP = 3, and changes nothing else in
the block (10_state.md R23). -/
def Obligations.CmdFaultCauses : Prop :=
  ∀ s t : State, step s = .next t →
    (t.cmdFault = true ↔
      s.input.rst = false ∧
        (s.cmdFault = true ∨
          (cmdWrite s.input = true ∧
            (s.input.regWdata.extractLsb' 0 2 = 3 ∨ (s.input.regWdata.extractLsb' 0 2 ≠ 0 ∧ s.busy = true))))) ∧
    ∀ b, ∃ t', step { s with cmdFault := b } = .next t' ∧ { t' with cmdFault := t.cmdFault } = t

/-- The Reading changes only in a capture tick that ends OK, both registers from the captured frame, which passes both
checks (10_state.md R21, R22, 44_validator.md R145). -/
def Obligations.ReadingChangesOnlyOnOk : Prop :=
  ∀ s t : State, step s = .next t → s.input.rst = false →
    (t.tempX10 = s.tempX10 ∧ t.humX10 = s.humX10) ∨
    (s.captures ∧ t.result = .ok ∧ t.done = true ∧ t.ph = .idle ∧
      checksumOk s.capturedFrame = true ∧ rangeOk Config.params s.capturedFrame = true ∧
      t.humX10 = humRaw s.capturedFrame ∧ t.tempX10 = tempTenths s.capturedFrame)

/-- `result` changes, and `done` rises, only when a READ completes: a busy block comes to IDLE, or a READ is accepted in
Uninitialized mode; every such end leaves `done = 1` in IDLE; `done` falls only when a READ is accepted in Initialized mode
(10_state.md R19, R20, 60_exceptions.md R181). -/
def Obligations.ResultChangesOnlyOnCompletion : Prop :=
  ∀ s t : State, step s = .next t → s.input.rst = false →
    (t.result ≠ s.result ∨ (s.done = false ∧ t.done = true) →
      ((s.ph ≠ .idle ∧ t.ph = .idle) ∨ (s.acceptsRead ∧ s.initialized = false)) ∧ t.done = true ∧ t.ph = .idle) ∧
    (t.done = false → s.done = true → s.acceptsRead ∧ s.initialized = true) ∧
    (s.ph ≠ .idle → t.ph = .idle → t.done = true) ∧
    (s.acceptsRead → s.initialized = false → t.done = true ∧ t.result = .notInitialized)

/-- A READ that ends in Timeout leaves the pacing state as part 1 of the tick makes it (45_pacing.md R164,
60_exceptions.md R177): no wait follows the capture. -/
def Obligations.TimeoutNeverLoadsTheGate : Prop :=
  ∀ s t : State, step s = .next t → s.input.rst = false → s.ph ≠ .idle → t.ph = .idle → t.result = .timeout →
    (¬ s.captures) ∧ s.tmr = 200 ∧ phaseIsWait s.ph = true ∧
      t.hasRead = s.hasRead ∧ t.paceCnt = s.paceCnt - 1 ∧ t.frame = s.frame ∧ t.bitIdx = s.bitIdx

/-- The only phase transitions are those of the table (10_state.md R15). -/
def Obligations.PhaseTransitionsAreTheTables : Prop :=
  ∀ s t : State, s.Inv → step s = .next t →
    (s.input.rst = true ∧ t.ph = .idle) ∨ (s.input.rst = false ∧ s.mayEnter t.ph)

/-! ## Invariants -/

/-- The invariant holds after reset (10_state.md R33). -/
def Obligations.InvariantAtReset : Prop :=
  State.reset.Inv ∧ State.reset.FreshFrame ∧ State.reset.UninitClean ∧ State.reset.OkIsValid

/-- Every step keeps the invariant of 10_state.md R33, from every state that has it, for any inputs. -/
def Obligations.EveryStepKeepsInv : Prop :=
  ∀ s t : State, s.Inv → step s = .next t → t.Inv

/-- The invariant gives every counter in range, so no step of a state with it stops. -/
def Obligations.RunningStatesAreInRange : Prop :=
  ∀ s : State, s.Inv → s.inRange ∧ ∃ t, step s = .next t

/-- The frame is created fresh: before the first bit it is 0, and a cell not yet written holds 0 (10_state.md R18,
20_memory.md R45, 42_handshake.md R116). -/
def Obligations.EveryStepKeepsFreshFrame : Prop :=
  ∀ s t : State, s.FreshFrame → step s = .next t → t.FreshFrame

/-- In Uninitialized mode nothing lasting changes but by INIT (60_exceptions.md R188). -/
def Obligations.EveryStepKeepsUninitClean : Prop :=
  ∀ s t : State, s.UninitClean → step s = .next t → t.UninitClean

/-- `result = 0` with `done = 1` implies that the frame passed both checks and that TEMP and HUM are its conversion
(70_reset_and_hazards.md R207, R209). -/
def Obligations.EveryStepKeepsOkIsValid : Prop :=
  ∀ s t : State, s.Inv → s.OkIsValid → step s = .next t → t.OkIsValid

/-! ## Runs -/

/-- The start pulse: 18000 ticks driven low, 30 driven high, then released (30_encoding.md R68, 42_handshake.md R117),
whatever the line and the host do. -/
def Obligations.StartPulseWaveform : Prop :=
  ∀ (s : State), s.Inv → s.ph = .startLow → s.tmr = 0 → s.noResetFor 18030 →
    ∀ k, k ≤ 18030 → ∃ t, ticks k s = .next t ∧
      (k < 18000 → t.lineOe = true ∧ t.lineOut = false) ∧
      (18000 ≤ k → k < 18030 → t.lineOe = true ∧ t.lineOut = true) ∧
      (k = 18030 → t.ph = .ackLow ∧ t.tmr = 0 ∧ t.lineOe = false)

/-- A wait phase lasts at most 201 ticks, whatever the line does (41_waiter.md R107). -/
def Obligations.WaitEndsWithin201 : Prop :=
  ∀ (s : State), s.Inv → phaseIsWait s.ph = true → s.tmr = 0 → s.noResetFor 201 →
    ∃ k t, 1 ≤ k ∧ k ≤ 201 ∧ ticks k s = .next t ∧ t.ph ≠ s.ph

/-- Every accepted READ completes (70_reset_and_hazards.md R213, 40_commands.md R90): with `k = te - ta`, at most 2034712,
and at most 34714 with the gate open; the block is busy from the tick after acceptance through the completion tick. -/
def Obligations.EveryReadCompletes : Prop :=
  ∀ s : State, s.Inv → s.acceptsRead → s.initialized = true → s.noResetFor 2034713 →
    ∃ k t, 1 ≤ k ∧ k ≤ 2034712 ∧ (s.paceCnt = 0 → k ≤ 34714) ∧
      ticks (k + 1) s = .next t ∧ t.ph = .idle ∧ t.done = true ∧
      ∀ j, 1 ≤ j → j ≤ k → ∃ u, ticks j s = .next u ∧ u.ph ≠ .idle

/-- No READ of an initialized block completes in less than 18114 ticks (70_reset_and_hazards.md R212, the shortest line
of its table): the block is busy in each of the 18114 ticks after the acceptance tick, whatever the line and the host do. -/
def Obligations.NoReadIsShorter : Prop :=
  ∀ s : State, s.Inv → s.acceptsRead → s.initialized = true → s.noResetFor 18114 →
    ∀ j, 1 ≤ j → j ≤ 18114 → ∃ u, ticks j s = .next u ∧ u.busy = true

/-- From any tick of a READ to its end, an end that is not OK leaves the Reading as it was (40_commands.md R90,
44_validator.md R145). -/
def Obligations.FailedReadKeepsTheReading : Prop :=
  ∀ (s t : State) (k : Nat), s.noResetFor (k + 1) →
    (∀ j u, 1 ≤ j → j ≤ k → ticks j s = .next u → u.ph ≠ .idle) →
    ticks (k + 1) s = .next t → (t.ph = .idle → t.result ≠ .ok) →
    t.tempX10 = s.tempX10 ∧ t.humX10 = s.humX10

/-- The counter is the interval minus the time since the last capture (45_pacing.md R166): `k + 1` ticks after a capture
tick, with no reset, INIT or further capture since, it is `max(0, 2000000 - (k + 1))`. -/
def Obligations.CounterIsIntervalMinusElapsed : Prop :=
  ∀ (s t u : State) (k : Nat), s.Inv → s.captures → step s = .next t →
    (∀ j v, j < k → ticks j t = .next v → v.input.rst = false ∧ ¬ v.acceptsInit ∧ ¬ v.captures) →
    ticks k t = .next u → u.paceCnt = 2000000 - (k + 1)

/-- Minimum spacing (45_pacing.md R167): in the 2000000 ticks after a capture, with no reset and no INIT accepted since, no
start pulse begins: the block is in IDLE or PACE_WAIT and does not drive the line. -/
def Obligations.NoStartPulseWithinTheInterval : Prop :=
  ∀ (s t u : State) (k : Nat), s.Inv → s.captures → step s = .next t →
    (∀ j v, j < k → ticks j t = .next v → v.input.rst = false ∧ ¬ v.acceptsInit) →
    k < 2000000 → ticks k t = .next u → (u.ph = .idle ∨ u.ph = .paceWait) ∧ u.lineOe = false

/-- Before an INIT is accepted the block never touches the pad, whatever is read or written (40_commands.md R85,
60_exceptions.md R176, R188): over any run from a clean Uninitialized state without an accepted INIT. -/
def Obligations.NoPadActivityBeforeInit : Prop :=
  ∀ (s t : State) (k : Nat), s.UninitClean → s.initialized = false →
    (∀ j v, j < k → ticks j s = .next v → ¬ v.acceptsInit) →
    ticks k s = .next t → t.lineOe = false ∧ t.pullEn = false ∧ t.busy = false

/-- The host cannot disturb a READ in progress (40_commands.md R87): two runs with the same levels on the line and no reset
differ, while the first is busy, in `cmd_fault` alone, whatever either host writes. -/
def Obligations.HostCannotDisturbARead : Prop :=
  ∀ (k : Nat) (s u s' : State), s.sameButFault u → s.noResetFor k → u.noResetFor k →
    (∀ j, j < k → (s.inputAt j).lineIn = (u.inputAt j).lineIn) →
    (∀ j v, j < k → ticks j s = .next v → v.ph ≠ .idle) →
    ticks k s = .next s' → ∃ u', ticks k u = .next u' ∧ s'.sameButFault u'
end

