-- ==== Sys2Proof/Laws/Config.lean ====
section
/-! SUPPORT. The values of the parameters (00_scope.md R7). -/

namespace Sys2Proof

@[simp] theorem params_startLowUs : Config.params.startLowUs = 18000 := rfl
@[simp] theorem params_startHighUs : Config.params.startHighUs = 30 := rfl
@[simp] theorem params_edgeTimeoutUs : Config.params.edgeTimeoutUs = 200 := rfl
@[simp] theorem params_bitThresholdUs : Config.params.bitThresholdUs = 50 := rfl
@[simp] theorem params_minIntervalTicks : Config.params.minIntervalTicks = 2000000 := rfl
@[simp] theorem frameBits_eq : Config.frameBits = 40 := rfl
@[simp] theorem params_humMaxX10 : Config.params.humMaxX10 = 1000 := rfl
@[simp] theorem params_tempMaxX10 : Config.params.tempMaxX10 = 800 := rfl
@[simp] theorem params_tempMinMagX10 : Config.params.tempMinMagX10 = 400 := rfl
@[simp] theorem params_syncLat : Config.params.syncLat = 0 := rfl
@[simp] theorem params_tmrMax : Config.params.tmrMax = 17999 := rfl
@[simp] theorem params_paceMax : Config.params.paceMax = 1999999 := rfl

/-- `TMR_W` = 15 and `PACE_W` = 21 (00_scope.md section 5). -/
theorem params_widths : Config.params.tmrW = 15 ∧ Config.params.paceW = 21 := by decide

/-- A timer in range fits `TMR_W` bits (92_eei_decisions.md D22). -/
theorem fits_tmrW (p : Config.Params) (n : Nat) (h : n ≤ p.tmrMax) : n < 2 ^ p.tmrW :=
  Nat.lt_of_le_of_lt h Nat.lt_log2_self

/-- A pacing counter in range fits `PACE_W` bits (92_eei_decisions.md D22). -/
theorem fits_paceW (p : Config.Params) (n : Nat) (h : n ≤ p.paceMax) : n < 2 ^ p.paceW :=
  Nat.lt_of_le_of_lt h Nat.lt_log2_self

end Sys2Proof
end

