-- ==== Sys2Proof/Laws/Encoding.lean ====
section
/-! SUPPORT. The words of Decode.lean and STATUS, bit by bit, and the decoder at the codes. -/

namespace Sys2Proof

theorem encodeCmd_getLsbD (op : BitVec 2) (g : BitVec 30) (i : Nat) :
    (encodeCmd op g).getLsbD i = if i < 2 then op.getLsbD i else g.getLsbD (i - 2) :=
  BitVec.getLsbD_append

theorem encodeInit_getLsbD (p : Byte) (a : BitVec 16) (b : BitVec 6) (i : Nat) :
    (encodeInit p a b).getLsbD i =
      if i < 2 then (1 : BitVec 2).getLsbD i else if i < 8 then b.getLsbD (i - 2) else
        if i < 16 then p.getLsbD (i - 8) else a.getLsbD (i - 16) := by
  refine (BitVec.getLsbD_append (x := a ++ p ++ b) (y := (1 : BitVec 2))).trans ?_
  rw [BitVec.getLsbD_append, BitVec.getLsbD_append]
  split_ifs <;> first | rfl | omega

theorem encodeFrame_getLsbD (h : BitVec 16) (n : Bool) (m : BitVec 15) (c : Byte) (i : Nat) :
    (encodeFrame h n m c).getLsbD i =
      if i < 8 then c.getLsbD i else if i < 23 then m.getLsbD (i - 8) else
        if i = 23 then n else h.getLsbD (i - 24) := by
  refine (BitVec.getLsbD_append (x := h ++ BitVec.ofBool n ++ m) (y := c)).trans ?_
  rw [BitVec.getLsbD_append, BitVec.getLsbD_append]
  split_ifs <;> first | rfl | omega | (subst_vars; simp)

/-! ## Codes -/

@[simp] theorem decodePhase_code (p : Phase) : decodePhase p.code = .ok p := by cases p <;> rfl

@[simp] theorem decodeResult_code (r : ResultCode) : decodeResult r.code = .ok r := by cases r <;> rfl

@[simp] theorem decodePaceState_code (p : PaceState) : decodePaceState p.code = .ok p := by cases p <;> rfl

theorem phase_code_of_decode (c : BitVec 4) (p : Phase) (h : decodePhase c = .ok p) : p.code = c := by
  unfold decodePhase at h
  apply BitVec.eq_of_toNat_eq
  split at h <;> cases h <;> rename_i e <;> exact e.symm

theorem result_code_of_decode (c : BitVec 3) (r : ResultCode) (h : decodeResult c = .ok r) : r.code = c := by
  unfold decodeResult at h
  apply BitVec.eq_of_toNat_eq
  split at h <;> cases h <;> rename_i e <;> exact e.symm

theorem paceState_code_of_decode (c : BitVec 2) (p : PaceState) (h : decodePaceState c = .ok p) : p.code = c := by
  unfold decodePaceState at h
  apply BitVec.eq_of_toNat_eq
  split at h <;> cases h <;> rename_i e <;> exact e.symm

/-- The tick's word decodes to the tick's instruction. -/
theorem decode_fetchWord (s : Machine.State) : decode (Machine.fetchWord s) = .ok (Machine.fetch s) := by
  unfold Machine.fetchWord Machine.fetch
  split
  · rfl
  · simp [decode, Except.map]

/-! ## The four command codes -/

/-- Which command a word is, by its low two bits (30_encoding.md R61). -/
theorem decodeCmd_cases (w : Word) :
    (w.extractLsb' 0 2 = 0 ∧ decodeCmd w = .nop (w.extractLsb' 2 30)) ∨
    (w.extractLsb' 0 2 = 1 ∧
      decodeCmd w = .init (w.extractLsb' 8 8) (w.extractLsb' 16 16) (w.extractLsb' 2 6)) ∨
    (w.extractLsb' 0 2 = 2 ∧ decodeCmd w = .read (w.extractLsb' 2 30)) ∨
    (w.extractLsb' 0 2 = 3 ∧ decodeCmd w = .rsvd (w.extractLsb' 2 30)) := by
  unfold decodeCmd
  rcases (by omega : (w.extractLsb' 0 2).toNat = 0 ∨ (w.extractLsb' 0 2).toNat = 1 ∨
    (w.extractLsb' 0 2).toNat = 2 ∨ (w.extractLsb' 0 2).toNat = 3) with h | h | h | h
  · exact .inl ⟨BitVec.eq_of_toNat_eq h, by simp only [h]⟩
  · exact .inr (.inl ⟨BitVec.eq_of_toNat_eq h, by simp only [h]⟩)
  · exact .inr (.inr (.inl ⟨BitVec.eq_of_toNat_eq h, by simp only [h]⟩))
  · exact .inr (.inr (.inr ⟨BitVec.eq_of_toNat_eq h, by simp only [h]⟩))

/-! ## STATUS -/

theorem status_getLsbD (s : Machine.State) (i : Nat) (hi : i < 32) :
    s.status.getLsbD i =
      if i = 0 then s.initialized else if i = 1 then s.busy else if i = 2 then s.done else
      if i = 3 then s.cmdFault else if i < 7 then s.result.code.getLsbD (i - 4) else
      if i < 8 then false else if i < 10 then s.paceState.code.getLsbD (i - 8) else
      if i < 16 then false else if i < 20 then s.ph.code.getLsbD (i - 16) else
      if i < 24 then false else if i < 30 then s.bitIdx.getLsbD (i - 24) else false := by
  unfold Machine.State.status
  refine (BitVec.getLsbD_append (x := (0 : BitVec 2) ++ s.bitIdx ++ (0 : BitVec 4) ++ s.ph.code ++ (0 : BitVec 6) ++
    s.paceState.code ++ (0 : BitVec 1) ++ s.result.code ++ BitVec.ofBool s.cmdFault ++ BitVec.ofBool s.done ++
    BitVec.ofBool s.busy) (y := BitVec.ofBool s.initialized)).trans ?_
  simp only [BitVec.getLsbD_append]
  interval_cases i <;> simp

end Sys2Proof
end

