-- ==== Sys2Proof/Laws/Operands.lean ====
section
/-! SUPPORT. What each operation of Machine/Operands.lean answers. -/

namespace Sys2Proof.Machine

theorem countdown_eq (c : Nat) : countdown c = c - 1 := by
  unfold countdown
  split <;> omega

@[simp] theorem countdown_zero : countdown 0 = 0 := rfl

theorem pulseWidth_eq (t : Nat) : pulseWidth t = t + 1 := rfl

theorem pulseBit_eq_true_iff (n t : Nat) : pulseBit n t = true ↔ n ≤ t := by
  unfold pulseBit pulseWidth
  rw [decide_eq_true_iff]
  omega

theorem frameBitWrite_getLsbD (f : Frame) (i j : Nat) (b : Bool) (hj : j < 40) :
    (frameBitWrite f i b).getLsbD j = if j = 39 - i then b else f.getLsbD j := by
  unfold frameBitWrite
  by_cases h : j = 39 - i
  · cases b
    · simp [h]
    · simp [h]
      omega
  · cases b
    · simp [h, hj]
    · simp [h]
      omega

end Sys2Proof.Machine
end

