-- ==== Sys2Proof/Laws/State.lean ====
section
/-! SUPPORT. One lemma per field per update of the state: what each named update of Machine/Ops.lean leaves in each
field. -/

namespace Sys2Proof.Machine

/-! ## `elapse` -/

@[simp] theorem elapse_initialized (t : State) : (elapse t).initialized = t.initialized := rfl
@[simp] theorem elapse_pin (t : State) : (elapse t).pin = t.pin := rfl
@[simp] theorem elapse_hasRead (t : State) : (elapse t).hasRead = t.hasRead := rfl
@[simp] theorem elapse_paceCnt (t : State) : (elapse t).paceCnt = countdown t.paceCnt := rfl
@[simp] theorem elapse_ph (t : State) : (elapse t).ph = t.ph := rfl
@[simp] theorem elapse_tmr (t : State) : (elapse t).tmr = t.tmr := rfl
@[simp] theorem elapse_bitIdx (t : State) : (elapse t).bitIdx = t.bitIdx := rfl
@[simp] theorem elapse_frame (t : State) : (elapse t).frame = t.frame := rfl
@[simp] theorem elapse_result (t : State) : (elapse t).result = t.result := rfl
@[simp] theorem elapse_done (t : State) : (elapse t).done = t.done := rfl
@[simp] theorem elapse_tempX10 (t : State) : (elapse t).tempX10 = t.tempX10 := rfl
@[simp] theorem elapse_humX10 (t : State) : (elapse t).humX10 = t.humX10 := rfl
@[simp] theorem elapse_cmdFault (t : State) : (elapse t).cmdFault = t.cmdFault := rfl
@[simp] theorem elapse_inputs (t : State) : (elapse t).inputs = t.inputs.tail := rfl
@[simp] theorem elapse_tick (t : State) : (elapse t).tick = t.tick + 1 := rfl

/-! ## `resetTick` -/

@[simp] theorem resetTick_initialized (t : State) : (resetTick t).initialized = State.reset.initialized := rfl
@[simp] theorem resetTick_pin (t : State) : (resetTick t).pin = State.reset.pin := rfl
@[simp] theorem resetTick_hasRead (t : State) : (resetTick t).hasRead = State.reset.hasRead := rfl
@[simp] theorem resetTick_paceCnt (t : State) : (resetTick t).paceCnt = State.reset.paceCnt := rfl
@[simp] theorem resetTick_ph (t : State) : (resetTick t).ph = State.reset.ph := rfl
@[simp] theorem resetTick_tmr (t : State) : (resetTick t).tmr = State.reset.tmr := rfl
@[simp] theorem resetTick_bitIdx (t : State) : (resetTick t).bitIdx = State.reset.bitIdx := rfl
@[simp] theorem resetTick_frame (t : State) : (resetTick t).frame = State.reset.frame := rfl
@[simp] theorem resetTick_result (t : State) : (resetTick t).result = State.reset.result := rfl
@[simp] theorem resetTick_done (t : State) : (resetTick t).done = State.reset.done := rfl
@[simp] theorem resetTick_tempX10 (t : State) : (resetTick t).tempX10 = State.reset.tempX10 := rfl
@[simp] theorem resetTick_humX10 (t : State) : (resetTick t).humX10 = State.reset.humX10 := rfl
@[simp] theorem resetTick_cmdFault (t : State) : (resetTick t).cmdFault = State.reset.cmdFault := rfl
@[simp] theorem resetTick_inputs (t : State) : (resetTick t).inputs = t.inputs.tail := rfl
@[simp] theorem resetTick_tick (t : State) : (resetTick t).tick = t.tick + 1 := rfl

/-! ## `enter` -/

@[simp] theorem enter_initialized (p : Phase) (t : State) : (enter p t).initialized = t.initialized := rfl
@[simp] theorem enter_pin (p : Phase) (t : State) : (enter p t).pin = t.pin := rfl
@[simp] theorem enter_hasRead (p : Phase) (t : State) : (enter p t).hasRead = t.hasRead := rfl
@[simp] theorem enter_paceCnt (p : Phase) (t : State) : (enter p t).paceCnt = t.paceCnt := rfl
@[simp] theorem enter_ph (p : Phase) (t : State) : (enter p t).ph = p := rfl
@[simp] theorem enter_tmr (p : Phase) (t : State) : (enter p t).tmr = 0 := rfl
@[simp] theorem enter_bitIdx (p : Phase) (t : State) : (enter p t).bitIdx = t.bitIdx := rfl
@[simp] theorem enter_frame (p : Phase) (t : State) : (enter p t).frame = t.frame := rfl
@[simp] theorem enter_result (p : Phase) (t : State) : (enter p t).result = t.result := rfl
@[simp] theorem enter_done (p : Phase) (t : State) : (enter p t).done = t.done := rfl
@[simp] theorem enter_tempX10 (p : Phase) (t : State) : (enter p t).tempX10 = t.tempX10 := rfl
@[simp] theorem enter_humX10 (p : Phase) (t : State) : (enter p t).humX10 = t.humX10 := rfl
@[simp] theorem enter_cmdFault (p : Phase) (t : State) : (enter p t).cmdFault = t.cmdFault := rfl
@[simp] theorem enter_inputs (p : Phase) (t : State) : (enter p t).inputs = t.inputs := rfl
@[simp] theorem enter_tick (p : Phase) (t : State) : (enter p t).tick = t.tick := rfl

/-! ## `countTimer` -/

@[simp] theorem countTimer_initialized (t : State) : (countTimer t).initialized = t.initialized := rfl
@[simp] theorem countTimer_pin (t : State) : (countTimer t).pin = t.pin := rfl
@[simp] theorem countTimer_hasRead (t : State) : (countTimer t).hasRead = t.hasRead := rfl
@[simp] theorem countTimer_paceCnt (t : State) : (countTimer t).paceCnt = t.paceCnt := rfl
@[simp] theorem countTimer_ph (t : State) : (countTimer t).ph = t.ph := rfl
@[simp] theorem countTimer_tmr (t : State) : (countTimer t).tmr = t.tmr + 1 := rfl
@[simp] theorem countTimer_bitIdx (t : State) : (countTimer t).bitIdx = t.bitIdx := rfl
@[simp] theorem countTimer_frame (t : State) : (countTimer t).frame = t.frame := rfl
@[simp] theorem countTimer_result (t : State) : (countTimer t).result = t.result := rfl
@[simp] theorem countTimer_done (t : State) : (countTimer t).done = t.done := rfl
@[simp] theorem countTimer_tempX10 (t : State) : (countTimer t).tempX10 = t.tempX10 := rfl
@[simp] theorem countTimer_humX10 (t : State) : (countTimer t).humX10 = t.humX10 := rfl
@[simp] theorem countTimer_cmdFault (t : State) : (countTimer t).cmdFault = t.cmdFault := rfl
@[simp] theorem countTimer_inputs (t : State) : (countTimer t).inputs = t.inputs := rfl
@[simp] theorem countTimer_tick (t : State) : (countTimer t).tick = t.tick := rfl

/-! ## `complete` -/

@[simp] theorem complete_initialized (c : ResultCode) (t : State) : (complete c t).initialized = t.initialized := rfl
@[simp] theorem complete_pin (c : ResultCode) (t : State) : (complete c t).pin = t.pin := rfl
@[simp] theorem complete_hasRead (c : ResultCode) (t : State) : (complete c t).hasRead = t.hasRead := rfl
@[simp] theorem complete_paceCnt (c : ResultCode) (t : State) : (complete c t).paceCnt = t.paceCnt := rfl
@[simp] theorem complete_ph (c : ResultCode) (t : State) : (complete c t).ph = .idle := rfl
@[simp] theorem complete_tmr (c : ResultCode) (t : State) : (complete c t).tmr = t.tmr := rfl
@[simp] theorem complete_bitIdx (c : ResultCode) (t : State) : (complete c t).bitIdx = t.bitIdx := rfl
@[simp] theorem complete_frame (c : ResultCode) (t : State) : (complete c t).frame = t.frame := rfl
@[simp] theorem complete_result (c : ResultCode) (t : State) : (complete c t).result = c := rfl
@[simp] theorem complete_done (c : ResultCode) (t : State) : (complete c t).done = true := rfl
@[simp] theorem complete_tempX10 (c : ResultCode) (t : State) : (complete c t).tempX10 = t.tempX10 := rfl
@[simp] theorem complete_humX10 (c : ResultCode) (t : State) : (complete c t).humX10 = t.humX10 := rfl
@[simp] theorem complete_cmdFault (c : ResultCode) (t : State) : (complete c t).cmdFault = t.cmdFault := rfl
@[simp] theorem complete_inputs (c : ResultCode) (t : State) : (complete c t).inputs = t.inputs := rfl
@[simp] theorem complete_tick (c : ResultCode) (t : State) : (complete c t).tick = t.tick := rfl

/-! ## `recordCapture` -/

@[simp] theorem recordCapture_initialized (p : Config.Params) (t : State) : (recordCapture p t).initialized = t.initialized := rfl
@[simp] theorem recordCapture_pin (p : Config.Params) (t : State) : (recordCapture p t).pin = t.pin := rfl
@[simp] theorem recordCapture_hasRead (p : Config.Params) (t : State) : (recordCapture p t).hasRead = true := rfl
@[simp] theorem recordCapture_paceCnt (p : Config.Params) (t : State) : (recordCapture p t).paceCnt = p.paceMax := rfl
@[simp] theorem recordCapture_ph (p : Config.Params) (t : State) : (recordCapture p t).ph = t.ph := rfl
@[simp] theorem recordCapture_tmr (p : Config.Params) (t : State) : (recordCapture p t).tmr = t.tmr := rfl
@[simp] theorem recordCapture_bitIdx (p : Config.Params) (t : State) : (recordCapture p t).bitIdx = t.bitIdx := rfl
@[simp] theorem recordCapture_frame (p : Config.Params) (t : State) : (recordCapture p t).frame = t.frame := rfl
@[simp] theorem recordCapture_result (p : Config.Params) (t : State) : (recordCapture p t).result = t.result := rfl
@[simp] theorem recordCapture_done (p : Config.Params) (t : State) : (recordCapture p t).done = t.done := rfl
@[simp] theorem recordCapture_tempX10 (p : Config.Params) (t : State) : (recordCapture p t).tempX10 = t.tempX10 := rfl
@[simp] theorem recordCapture_humX10 (p : Config.Params) (t : State) : (recordCapture p t).humX10 = t.humX10 := rfl
@[simp] theorem recordCapture_cmdFault (p : Config.Params) (t : State) : (recordCapture p t).cmdFault = t.cmdFault := rfl
@[simp] theorem recordCapture_inputs (p : Config.Params) (t : State) : (recordCapture p t).inputs = t.inputs := rfl
@[simp] theorem recordCapture_tick (p : Config.Params) (t : State) : (recordCapture p t).tick = t.tick := rfl

/-! ## `storeFrame` -/

@[simp] theorem storeFrame_initialized (f : Frame) (t : State) : (storeFrame f t).initialized = t.initialized := rfl
@[simp] theorem storeFrame_pin (f : Frame) (t : State) : (storeFrame f t).pin = t.pin := rfl
@[simp] theorem storeFrame_hasRead (f : Frame) (t : State) : (storeFrame f t).hasRead = t.hasRead := rfl
@[simp] theorem storeFrame_paceCnt (f : Frame) (t : State) : (storeFrame f t).paceCnt = t.paceCnt := rfl
@[simp] theorem storeFrame_ph (f : Frame) (t : State) : (storeFrame f t).ph = t.ph := rfl
@[simp] theorem storeFrame_tmr (f : Frame) (t : State) : (storeFrame f t).tmr = 0 := rfl
@[simp] theorem storeFrame_bitIdx (f : Frame) (t : State) : (storeFrame f t).bitIdx = t.bitIdx := rfl
@[simp] theorem storeFrame_frame (f : Frame) (t : State) : (storeFrame f t).frame = f := rfl
@[simp] theorem storeFrame_result (f : Frame) (t : State) : (storeFrame f t).result = t.result := rfl
@[simp] theorem storeFrame_done (f : Frame) (t : State) : (storeFrame f t).done = t.done := rfl
@[simp] theorem storeFrame_tempX10 (f : Frame) (t : State) : (storeFrame f t).tempX10 = t.tempX10 := rfl
@[simp] theorem storeFrame_humX10 (f : Frame) (t : State) : (storeFrame f t).humX10 = t.humX10 := rfl
@[simp] theorem storeFrame_cmdFault (f : Frame) (t : State) : (storeFrame f t).cmdFault = t.cmdFault := rfl
@[simp] theorem storeFrame_inputs (f : Frame) (t : State) : (storeFrame f t).inputs = t.inputs := rfl
@[simp] theorem storeFrame_tick (f : Frame) (t : State) : (storeFrame f t).tick = t.tick := rfl

/-! ## `writeReading` -/

@[simp] theorem writeReading_initialized (f : Frame) (t : State) : (writeReading f t).initialized = t.initialized := rfl
@[simp] theorem writeReading_pin (f : Frame) (t : State) : (writeReading f t).pin = t.pin := rfl
@[simp] theorem writeReading_hasRead (f : Frame) (t : State) : (writeReading f t).hasRead = t.hasRead := rfl
@[simp] theorem writeReading_paceCnt (f : Frame) (t : State) : (writeReading f t).paceCnt = t.paceCnt := rfl
@[simp] theorem writeReading_ph (f : Frame) (t : State) : (writeReading f t).ph = t.ph := rfl
@[simp] theorem writeReading_tmr (f : Frame) (t : State) : (writeReading f t).tmr = t.tmr := rfl
@[simp] theorem writeReading_bitIdx (f : Frame) (t : State) : (writeReading f t).bitIdx = t.bitIdx := rfl
@[simp] theorem writeReading_frame (f : Frame) (t : State) : (writeReading f t).frame = t.frame := rfl
@[simp] theorem writeReading_result (f : Frame) (t : State) : (writeReading f t).result = t.result := rfl
@[simp] theorem writeReading_done (f : Frame) (t : State) : (writeReading f t).done = t.done := rfl
@[simp] theorem writeReading_tempX10 (f : Frame) (t : State) : (writeReading f t).tempX10 = tempTenths f := rfl
@[simp] theorem writeReading_humX10 (f : Frame) (t : State) : (writeReading f t).humX10 = humRaw f := rfl
@[simp] theorem writeReading_cmdFault (f : Frame) (t : State) : (writeReading f t).cmdFault = t.cmdFault := rfl
@[simp] theorem writeReading_inputs (f : Frame) (t : State) : (writeReading f t).inputs = t.inputs := rfl
@[simp] theorem writeReading_tick (f : Frame) (t : State) : (writeReading f t).tick = t.tick := rfl

/-! ## `openGate` -/

@[simp] theorem openGate_initialized (t : State) : (openGate t).initialized = t.initialized := rfl
@[simp] theorem openGate_pin (t : State) : (openGate t).pin = t.pin := rfl
@[simp] theorem openGate_hasRead (t : State) : (openGate t).hasRead = t.hasRead := rfl
@[simp] theorem openGate_paceCnt (t : State) : (openGate t).paceCnt = t.paceCnt := rfl
@[simp] theorem openGate_ph (t : State) : (openGate t).ph = .startLow := rfl
@[simp] theorem openGate_tmr (t : State) : (openGate t).tmr = 0 := rfl
@[simp] theorem openGate_bitIdx (t : State) : (openGate t).bitIdx = 0 := rfl
@[simp] theorem openGate_frame (t : State) : (openGate t).frame = 0 := rfl
@[simp] theorem openGate_result (t : State) : (openGate t).result = t.result := rfl
@[simp] theorem openGate_done (t : State) : (openGate t).done = t.done := rfl
@[simp] theorem openGate_tempX10 (t : State) : (openGate t).tempX10 = t.tempX10 := rfl
@[simp] theorem openGate_humX10 (t : State) : (openGate t).humX10 = t.humX10 := rfl
@[simp] theorem openGate_cmdFault (t : State) : (openGate t).cmdFault = t.cmdFault := rfl
@[simp] theorem openGate_inputs (t : State) : (openGate t).inputs = t.inputs := rfl
@[simp] theorem openGate_tick (t : State) : (openGate t).tick = t.tick := rfl

/-! ## `storeBit` -/

@[simp] theorem storeBit_initialized (b : Bool) (t : State) : (storeBit b t).initialized = t.initialized := rfl
@[simp] theorem storeBit_pin (b : Bool) (t : State) : (storeBit b t).pin = t.pin := rfl
@[simp] theorem storeBit_hasRead (b : Bool) (t : State) : (storeBit b t).hasRead = t.hasRead := rfl
@[simp] theorem storeBit_paceCnt (b : Bool) (t : State) : (storeBit b t).paceCnt = t.paceCnt := rfl
@[simp] theorem storeBit_ph (b : Bool) (t : State) : (storeBit b t).ph = .bitHigh := rfl
@[simp] theorem storeBit_tmr (b : Bool) (t : State) : (storeBit b t).tmr = 0 := rfl
@[simp] theorem storeBit_bitIdx (b : Bool) (t : State) : (storeBit b t).bitIdx = t.bitIdx + 1 := rfl
@[simp] theorem storeBit_frame (b : Bool) (t : State) : (storeBit b t).frame = frameBitWrite t.frame t.bitIdx.toNat b := rfl
@[simp] theorem storeBit_result (b : Bool) (t : State) : (storeBit b t).result = t.result := rfl
@[simp] theorem storeBit_done (b : Bool) (t : State) : (storeBit b t).done = t.done := rfl
@[simp] theorem storeBit_tempX10 (b : Bool) (t : State) : (storeBit b t).tempX10 = t.tempX10 := rfl
@[simp] theorem storeBit_humX10 (b : Bool) (t : State) : (storeBit b t).humX10 = t.humX10 := rfl
@[simp] theorem storeBit_cmdFault (b : Bool) (t : State) : (storeBit b t).cmdFault = t.cmdFault := rfl
@[simp] theorem storeBit_inputs (b : Bool) (t : State) : (storeBit b t).inputs = t.inputs := rfl
@[simp] theorem storeBit_tick (b : Bool) (t : State) : (storeBit b t).tick = t.tick := rfl

/-! ## `setCmdFault` -/

@[simp] theorem setCmdFault_initialized (t : State) : (setCmdFault t).initialized = t.initialized := rfl
@[simp] theorem setCmdFault_pin (t : State) : (setCmdFault t).pin = t.pin := rfl
@[simp] theorem setCmdFault_hasRead (t : State) : (setCmdFault t).hasRead = t.hasRead := rfl
@[simp] theorem setCmdFault_paceCnt (t : State) : (setCmdFault t).paceCnt = t.paceCnt := rfl
@[simp] theorem setCmdFault_ph (t : State) : (setCmdFault t).ph = t.ph := rfl
@[simp] theorem setCmdFault_tmr (t : State) : (setCmdFault t).tmr = t.tmr := rfl
@[simp] theorem setCmdFault_bitIdx (t : State) : (setCmdFault t).bitIdx = t.bitIdx := rfl
@[simp] theorem setCmdFault_frame (t : State) : (setCmdFault t).frame = t.frame := rfl
@[simp] theorem setCmdFault_result (t : State) : (setCmdFault t).result = t.result := rfl
@[simp] theorem setCmdFault_done (t : State) : (setCmdFault t).done = t.done := rfl
@[simp] theorem setCmdFault_tempX10 (t : State) : (setCmdFault t).tempX10 = t.tempX10 := rfl
@[simp] theorem setCmdFault_humX10 (t : State) : (setCmdFault t).humX10 = t.humX10 := rfl
@[simp] theorem setCmdFault_cmdFault (t : State) : (setCmdFault t).cmdFault = true := rfl
@[simp] theorem setCmdFault_inputs (t : State) : (setCmdFault t).inputs = t.inputs := rfl
@[simp] theorem setCmdFault_tick (t : State) : (setCmdFault t).tick = t.tick := rfl

/-! ## `acceptInit` -/

@[simp] theorem acceptInit_initialized (p : Byte) (t : State) : (acceptInit p t).initialized = true := rfl
@[simp] theorem acceptInit_pin (p : Byte) (t : State) : (acceptInit p t).pin = p := rfl
@[simp] theorem acceptInit_hasRead (p : Byte) (t : State) : (acceptInit p t).hasRead = false := rfl
@[simp] theorem acceptInit_paceCnt (p : Byte) (t : State) : (acceptInit p t).paceCnt = 0 := rfl
@[simp] theorem acceptInit_ph (p : Byte) (t : State) : (acceptInit p t).ph = t.ph := rfl
@[simp] theorem acceptInit_tmr (p : Byte) (t : State) : (acceptInit p t).tmr = t.tmr := rfl
@[simp] theorem acceptInit_bitIdx (p : Byte) (t : State) : (acceptInit p t).bitIdx = t.bitIdx := rfl
@[simp] theorem acceptInit_frame (p : Byte) (t : State) : (acceptInit p t).frame = t.frame := rfl
@[simp] theorem acceptInit_result (p : Byte) (t : State) : (acceptInit p t).result = t.result := rfl
@[simp] theorem acceptInit_done (p : Byte) (t : State) : (acceptInit p t).done = t.done := rfl
@[simp] theorem acceptInit_tempX10 (p : Byte) (t : State) : (acceptInit p t).tempX10 = t.tempX10 := rfl
@[simp] theorem acceptInit_humX10 (p : Byte) (t : State) : (acceptInit p t).humX10 = t.humX10 := rfl
@[simp] theorem acceptInit_cmdFault (p : Byte) (t : State) : (acceptInit p t).cmdFault = t.cmdFault := rfl
@[simp] theorem acceptInit_inputs (p : Byte) (t : State) : (acceptInit p t).inputs = t.inputs := rfl
@[simp] theorem acceptInit_tick (p : Byte) (t : State) : (acceptInit p t).tick = t.tick := rfl

/-! ## `acceptRead` -/

@[simp] theorem acceptRead_initialized (t : State) : (acceptRead t).initialized = t.initialized := rfl
@[simp] theorem acceptRead_pin (t : State) : (acceptRead t).pin = t.pin := rfl
@[simp] theorem acceptRead_hasRead (t : State) : (acceptRead t).hasRead = t.hasRead := rfl
@[simp] theorem acceptRead_paceCnt (t : State) : (acceptRead t).paceCnt = t.paceCnt := rfl
@[simp] theorem acceptRead_ph (t : State) : (acceptRead t).ph = .paceWait := rfl
@[simp] theorem acceptRead_tmr (t : State) : (acceptRead t).tmr = t.tmr := rfl
@[simp] theorem acceptRead_bitIdx (t : State) : (acceptRead t).bitIdx = t.bitIdx := rfl
@[simp] theorem acceptRead_frame (t : State) : (acceptRead t).frame = t.frame := rfl
@[simp] theorem acceptRead_result (t : State) : (acceptRead t).result = t.result := rfl
@[simp] theorem acceptRead_done (t : State) : (acceptRead t).done = false := rfl
@[simp] theorem acceptRead_tempX10 (t : State) : (acceptRead t).tempX10 = t.tempX10 := rfl
@[simp] theorem acceptRead_humX10 (t : State) : (acceptRead t).humX10 = t.humX10 := rfl
@[simp] theorem acceptRead_cmdFault (t : State) : (acceptRead t).cmdFault = t.cmdFault := rfl
@[simp] theorem acceptRead_inputs (t : State) : (acceptRead t).inputs = t.inputs := rfl
@[simp] theorem acceptRead_tick (t : State) : (acceptRead t).tick = t.tick := rfl

end Sys2Proof.Machine
end

