-- ==== Sys2Proof/Laws/Ops.lean ====
section
/-! SUPPORT. What each shared operation can do, said once. -/

namespace Sys2Proof.Machine

/-- The states in which a tick is taken: every counter within the range the rules reach for these parameters. -/
theorem rangeFault_eq_none_iff_of (p : Config.Params) (s : State) :
    s.rangeFault p = none ↔ s.tmr ≤ p.tmrMax ∧ s.bitIdx.toNat ≤ 39 ∧ s.paceCnt ≤ p.paceMax := by
  unfold State.rangeFault
  rw [frameBits_eq]
  split_ifs <;> simp <;> omega

/-- The same for the defaults: the range of 10_state.md R33. -/
theorem rangeFault_eq_none_iff (s : State) :
    s.rangeFault Config.params = none ↔ s.tmr ≤ 17999 ∧ s.bitIdx.toNat ≤ 39 ∧ s.paceCnt ≤ 1999999 := by
  rw [rangeFault_eq_none_iff_of, params_tmrMax, params_paceMax]

theorem tickTo_next_iff (p : Config.Params) (s t : State) (f : State → State) :
    tickTo p s f = .next t ↔ s.rangeFault p = none ∧ f (elapse s) = t := by
  unfold tickTo
  split <;> simp_all

theorem tickTo_of_range (p : Config.Params) (s : State) (f : State → State) (h : s.rangeFault p = none) :
    tickTo p s f = .next (f (elapse s)) := by
  simp [tickTo, h]

theorem tickTo_not_refused (p : Config.Params) (s : State) (f : State → State) (r : Refusal) : tickTo p s f ≠ .refused r := by
  unfold tickTo
  split <;> simp

theorem holdStep_cases (len : Nat) (nxt : Phase) (s t : State) :
    (s.tmr = len - 1 ∧ holdStep len nxt s t = enter nxt t) ∨
      (s.tmr ≠ len - 1 ∧ holdStep len nxt s t = countTimer t) := by
  unfold holdStep
  split <;> simp_all

theorem waitStep_cases (n : Nat) (target : Bool) (f g : State → State) (s t : State) :
    (s.input.lineIn = target ∧ waitStep n target f g s t = f t) ∨
      (s.input.lineIn ≠ target ∧ s.tmr = n ∧ waitStep n target f g s t = g t) ∨
      (s.input.lineIn ≠ target ∧ s.tmr ≠ n ∧ waitStep n target f g s t = countTimer t) := by
  unfold waitStep
  split_ifs <;> simp_all

theorem onFrame_cases (p : Config.Params) (f : Frame) (t : State) :
    (checksumOk f = false ∧ onFrame p f t = onChecksumError p (storeFrame f t)) ∨
      (checksumOk f = true ∧ rangeOk p f = false ∧ onFrame p f t = onInvalidData p (storeFrame f t)) ∨
      (checksumOk f = true ∧ rangeOk p f = true ∧ onFrame p f t = onOk p (storeFrame f t)) := by
  unfold onFrame
  split_ifs <;> simp_all

theorem pulseEnd_cases (p : Config.Params) (s t : State) :
    (s.bitIdx.toNat = 39 ∧ pulseEnd p s t = onFrame p (frameBitWrite s.frame 39 (pulseBit p.bitThresholdUs s.tmr)) t) ∨
      (s.bitIdx.toNat ≠ 39 ∧ pulseEnd p s t = storeBit (pulseBit p.bitThresholdUs s.tmr) t) := by
  unfold pulseEnd
  rw [frameBits_eq]
  split <;> simp_all

theorem onPaceWait_cases (s t : State) :
    (s.paceCnt = 0 ∧ onPaceWait s t = openGate t) ∨ (s.paceCnt ≠ 0 ∧ onPaceWait s t = t) := by
  unfold onPaceWait onReady onNeverRead onMustWait
  split_ifs <;> simp_all

theorem present_cases (f : State → State) (s t : State) :
    (s.ph = .idle ∧ present f s t = f t) ∨ (s.ph ≠ .idle ∧ present f s t = setCmdFault t) := by
  unfold present
  split <;> simp_all

theorem onRead_cases (s t : State) :
    (s.initialized = true ∧ onRead s t = acceptRead t) ∨
      (s.initialized = false ∧ onRead s t = complete .notInitialized t) := by
  unfold onRead onNotInitialized
  split <;> simp_all

end Sys2Proof.Machine
end

