-- ==== Sys2Proof/Laws/PerInstr.lean ====
section
/-! SUPPORT. Statements made of every instruction, one lemma per constructor. -/

namespace Sys2Proof.Laws.EncodingFormat

/-- An instruction's word is in the format of its row of opcode_table.json, with a code that the table of its format
defines and, for a command, its `OP` in the low two bits (30_encoding.md R61, R65, R66, R67, R71). -/
def Statement (i : Instr) : Prop :=
  (encode i).wellFormed = true ∧
    match i, encode i with
    | .nop _, .cmd w => w.extractLsb' 0 2 = 0
    | .init p _ _, .cmd w => w.extractLsb' 0 2 = 1 ∧ w.extractLsb' 8 8 = p
    | .read _, .cmd w => w.extractLsb' 0 2 = 2
    | .rsvd _, .cmd w => w.extractLsb' 0 2 = 3
    | .idle, .phase c => c = 0b0000
    | .paceWait, .phase c => c = 0b0001
    | .startLow, .phase c => c = 0b0010
    | .startHigh, .phase c => c = 0b0011
    | .ackLow, .phase c => c = 0b0100
    | .ackHigh, .phase c => c = 0b0101
    | .dataLow, .phase c => c = 0b0110
    | .bitHigh, .phase c => c = 0b0111
    | .bitLow, .phase c => c = 0b1000
    | .ok, .result c => c = 0b000
    | .notInitialized, .result c => c = 0b001
    | .timeout, .result c => c = 0b010
    | .checksumError, .result c => c = 0b011
    | .invalidData, .result c => c = 0b100
    | .neverRead, .paceState c => c = 0b00
    | .ready, .paceState c => c = 0b01
    | .mustWait, .paceState c => c = 0b10
    | .frame _ _ _ check, .frame f => f.extractLsb' 0 8 = check
    | _, _ => False

/-- The low two bits of a command word. -/
theorem low_encodeCmd (op : BitVec 2) (g : BitVec 30) : (encodeCmd op g).extractLsb' 0 2 = op := by
  apply BitVec.eq_of_getLsbD_eq
  intro i hi
  rw [BitVec.getLsbD_extractLsb', encodeCmd_getLsbD, Nat.zero_add, if_pos hi]
  simp [hi]

theorem nop (g : BitVec 30) : Statement (.nop g) := ⟨rfl, low_encodeCmd 0 g⟩

theorem init (p : Byte) (gh : BitVec 16) (gl : BitVec 6) : Statement (.init p gh gl) := by
  refine ⟨rfl, ?_, ?_⟩
  · apply BitVec.eq_of_getLsbD_eq
    intro i hi
    rw [BitVec.getLsbD_extractLsb', encodeInit_getLsbD, Nat.zero_add, if_pos hi]
    simp [hi]
  · apply BitVec.eq_of_getLsbD_eq
    intro i hi
    rw [BitVec.getLsbD_extractLsb', encodeInit_getLsbD, if_neg (by omega), if_neg (by omega), if_pos (by omega)]
    simp [hi]

theorem read (g : BitVec 30) : Statement (.read g) := ⟨rfl, low_encodeCmd 2 g⟩

theorem rsvd (g : BitVec 30) : Statement (.rsvd g) := ⟨rfl, low_encodeCmd 3 g⟩

theorem idle : Statement .idle := ⟨rfl, rfl⟩
theorem paceWait : Statement .paceWait := ⟨rfl, rfl⟩
theorem startLow : Statement .startLow := ⟨rfl, rfl⟩
theorem startHigh : Statement .startHigh := ⟨rfl, rfl⟩
theorem ackLow : Statement .ackLow := ⟨rfl, rfl⟩
theorem ackHigh : Statement .ackHigh := ⟨rfl, rfl⟩
theorem dataLow : Statement .dataLow := ⟨rfl, rfl⟩
theorem bitHigh : Statement .bitHigh := ⟨rfl, rfl⟩
theorem bitLow : Statement .bitLow := ⟨rfl, rfl⟩
theorem ok : Statement .ok := ⟨rfl, rfl⟩
theorem notInitialized : Statement .notInitialized := ⟨rfl, rfl⟩
theorem timeout : Statement .timeout := ⟨rfl, rfl⟩
theorem checksumError : Statement .checksumError := ⟨rfl, rfl⟩
theorem invalidData : Statement .invalidData := ⟨rfl, rfl⟩
theorem neverRead : Statement .neverRead := ⟨rfl, rfl⟩
theorem ready : Statement .ready := ⟨rfl, rfl⟩
theorem mustWait : Statement .mustWait := ⟨rfl, rfl⟩

theorem frame (h : BitVec 16) (n : Bool) (m : BitVec 15) (c : Byte) : Statement (.frame h n m c) := by
  refine ⟨rfl, ?_⟩
  apply BitVec.eq_of_getLsbD_eq
  intro i hi
  rw [BitVec.getLsbD_extractLsb', encodeFrame_getLsbD, Nat.zero_add, if_pos hi]
  simp [hi]

end Sys2Proof.Laws.EncodingFormat
end

