-- ==== Sys2Proof/Laws/Step.lean ====
section
/-! SUPPORT. What one step can do, said once, and the packaged induction over runs. -/

namespace Sys2Proof.Machine

/-- The effect of an instruction on the state under construction. -/
def instrEffect (p : Config.Params) (i : Instr) (s t : State) : State :=
  match i with
  | .nop _ => phaseAction p s t
  | .init pin _ _ => present (acceptInit pin) s (phaseAction p s t)
  | .read _ => present (onRead s) s (phaseAction p s t)
  | .rsvd _ => setCmdFault (phaseAction p s t)
  | .idle => onIdle t
  | .paceWait => onPaceWait s t
  | .startLow => onStartLow p s t
  | .startHigh => onStartHigh p s t
  | .ackLow => onAckLow p s t
  | .ackHigh => onAckHigh p s t
  | .dataLow => onDataLow p s t
  | .bitHigh => onBitHigh p s t
  | .bitLow => onBitLow p s t
  | .ok => onOk p t
  | .notInitialized => onNotInitialized t
  | .timeout => onTimeout t
  | .checksumError => onChecksumError p t
  | .invalidData => onInvalidData p t
  | .neverRead => onNeverRead t
  | .ready => onReady t
  | .mustWait => onMustWait t
  | .frame h n m c => onFrame p (encodeFrame h n m c) t

/-- Every instruction is one tick with its effect. -/
theorem execWith_eq_tickTo (p : Config.Params) (i : Instr) (s : State) :
    execWith p i s = tickTo p s (instrEffect p i s) := by
  cases i <;> rfl

/-- `exec` is `execWith` at the defaults of 00_scope.md R7. -/
theorem exec_eq_execWith (i : Instr) (s : State) : exec i s = execWith Config.params i s := by
  cases i <;> rfl

/-- `step` is `stepWith` at the defaults of 00_scope.md R7. -/
theorem step_eq_stepWith (s : State) : step s = stepWith Config.params s := by
  unfold step stepWith
  rw [exec_eq_execWith]

theorem exec_eq_tickTo (i : Instr) (s : State) :
    exec i s = tickTo Config.params s (instrEffect Config.params i s) := by
  rw [exec_eq_execWith, execWith_eq_tickTo]

/-- A phase's instruction does the phase action of a state in that phase. -/
theorem instrEffect_phase (p : Config.Params) (s t : State) : instrEffect p s.ph.instr s t = phaseAction p s t := by
  unfold phaseAction
  cases s.ph <;> rfl

theorem fetch_of_cmdWrite (s : State) (h : cmdWrite s.input = true) : fetch s = decodeCmd s.input.regWdata := by
  simp [fetch, h]

theorem fetch_of_no_cmdWrite (s : State) (h : cmdWrite s.input = false) : fetch s = s.ph.instr := by
  simp [fetch, h]

theorem step_of_rst (s : State) (h : s.input.rst = true) : step s = .next (resetTick s) := by
  simp [step, h]

theorem step_of_no_rst (s : State) (h : s.input.rst = false) :
    step s = tickTo Config.params s (instrEffect Config.params (fetch s) s) := by
  simp [step, h, exec_eq_tickTo]

/-- Part 3 of a tick, after parts 1 and 2 (40_commands.md R80): what a presented command adds. -/
def commandPart (s t : State) : State :=
  if cmdWrite s.input then
    match decodeCmd s.input.regWdata with
    | .init p _ _ => present (acceptInit p) s t
    | .read _ => present (onRead s) s t
    | .rsvd _ => setCmdFault t
    | _ => t
  else t

/-- A tick in the shape of 40_commands.md R80: part 1, part 2, part 3. -/
theorem fetch_effect (p : Config.Params) (s t : State) :
    instrEffect p (fetch s) s t = commandPart s (phaseAction p s t) := by
  unfold commandPart
  by_cases h : cmdWrite s.input = true
  · rw [fetch_of_cmdWrite s h, if_pos h]
    unfold decodeCmd
    split <;> rfl
  · rw [Bool.not_eq_true] at h
    rw [fetch_of_no_cmdWrite s h, if_neg (by simp [h]), instrEffect_phase]

theorem commandPart_cases (s t : State) :
    commandPart s t = t ∨ commandPart s t = setCmdFault t ∨
      (s.ph = .idle ∧ (∃ p, commandPart s t = acceptInit p t)) ∨
      (s.ph = .idle ∧ s.initialized = true ∧ commandPart s t = acceptRead t) ∨
      (s.ph = .idle ∧ s.initialized = false ∧ commandPart s t = complete .notInitialized t) := by
  unfold commandPart
  by_cases h : cmdWrite s.input = true
  · rw [if_pos h]
    split
    · rcases present_cases (acceptInit _) s t with ⟨h1, h2⟩ | ⟨-, h2⟩
      · exact .inr (.inr (.inl ⟨h1, _, h2⟩))
      · exact .inr (.inl h2)
    · rcases present_cases (onRead s) s t with ⟨h1, h2⟩ | ⟨-, h2⟩
      · rcases onRead_cases s t with ⟨h3, h4⟩ | ⟨h3, h4⟩
        · exact .inr (.inr (.inr (.inl ⟨h1, h3, h2.trans h4⟩)))
        · exact .inr (.inr (.inr (.inr ⟨h1, h3, h2.trans h4⟩)))
      · exact .inr (.inl h2)
    · exact .inr (.inl rfl)
    · exact .inl rfl
  · rw [if_neg h]
    exact .inl rfl

/-- Part 2 of a tick, row by row: the guard of each rule and what it does. -/
theorem phaseAction_cases_of (p : Config.Params) (s t : State) :
    (s.ph = .idle ∧ phaseAction p s t = t) ∨
    (s.ph = .paceWait ∧ s.paceCnt = 0 ∧ phaseAction p s t = openGate t) ∨
    (s.ph = .paceWait ∧ s.paceCnt ≠ 0 ∧ phaseAction p s t = t) ∨
    (s.ph = .startLow ∧ s.tmr = p.startLowUs - 1 ∧ phaseAction p s t = enter .startHigh t) ∨
    (s.ph = .startLow ∧ s.tmr ≠ p.startLowUs - 1 ∧ phaseAction p s t = countTimer t) ∨
    (s.ph = .startHigh ∧ s.tmr = p.startHighUs - 1 ∧ phaseAction p s t = enter .ackLow t) ∨
    (s.ph = .startHigh ∧ s.tmr ≠ p.startHighUs - 1 ∧ phaseAction p s t = countTimer t) ∨
    (s.ph = .ackLow ∧ s.input.lineIn = false ∧ phaseAction p s t = enter .ackHigh t) ∨
    (s.ph = .ackHigh ∧ s.input.lineIn = true ∧ phaseAction p s t = enter .dataLow t) ∨
    (s.ph = .dataLow ∧ s.input.lineIn = false ∧ phaseAction p s t = enter .bitHigh t) ∨
    (s.ph = .bitHigh ∧ s.input.lineIn = true ∧ phaseAction p s t = enter .bitLow t) ∨
    (s.ph = .bitLow ∧ s.input.lineIn = false ∧ s.bitIdx.toNat ≠ 39 ∧
      phaseAction p s t = storeBit (pulseBit p.bitThresholdUs s.tmr) t) ∨
    (s.ph = .bitLow ∧ s.input.lineIn = false ∧ s.bitIdx.toNat = 39 ∧
      phaseAction p s t = onFrame p (frameBitWrite s.frame 39 (pulseBit p.bitThresholdUs s.tmr)) t) ∨
    (∃ level, waitTarget s.ph = some level ∧ s.input.lineIn ≠ level ∧ s.tmr = p.edgeTimeoutUs ∧
      phaseAction p s t = complete .timeout t) ∨
    (∃ level, waitTarget s.ph = some level ∧ s.input.lineIn ≠ level ∧ s.tmr ≠ p.edgeTimeoutUs ∧
      phaseAction p s t = countTimer t) := by
  have wait := fun level f => waitStep_cases p.edgeTimeoutUs level f onTimeout s t
  unfold phaseAction
  cases h : s.ph <;> simp [waitTarget, onIdle]
  · have := onPaceWait_cases s t
    simp_all
  · exact holdStep_cases p.startLowUs .startHigh s t
  · exact holdStep_cases p.startHighUs .ackLow s t
  · have w := wait false (enter .ackHigh)
    change (_ ∧ onAckLow p s t = _) ∨ (_ ∧ _ ∧ onAckLow p s t = complete .timeout t) ∨ (_ ∧ _ ∧ onAckLow p s t = _) at w
    simpa using w
  · have w := wait true (enter .dataLow)
    change (_ ∧ onAckHigh p s t = _) ∨ (_ ∧ _ ∧ onAckHigh p s t = complete .timeout t) ∨ (_ ∧ _ ∧ onAckHigh p s t = _) at w
    simpa using w
  · have w := wait false (enter .bitHigh)
    change (_ ∧ onDataLow p s t = _) ∨ (_ ∧ _ ∧ onDataLow p s t = complete .timeout t) ∨ (_ ∧ _ ∧ onDataLow p s t = _) at w
    simpa using w
  · have w := wait true (enter .bitLow)
    change (_ ∧ onBitHigh p s t = _) ∨ (_ ∧ _ ∧ onBitHigh p s t = complete .timeout t) ∨ (_ ∧ _ ∧ onBitHigh p s t = _) at w
    simpa using w
  · have w := wait false (pulseEnd p s)
    change (_ ∧ onBitLow p s t = _) ∨ (_ ∧ _ ∧ onBitLow p s t = complete .timeout t) ∨ (_ ∧ _ ∧ onBitLow p s t = _) at w
    rcases w with ⟨a, b⟩ | ⟨a, b, c⟩ | ⟨a, b, c⟩
    · rcases pulseEnd_cases p s t with ⟨d, e⟩ | ⟨d, e⟩ <;> simp [a, b, d, e]
    · simp_all
    · simp_all

/-- The same with the numbers of the defaults. -/
theorem phaseAction_cases (s t : State) :
    (s.ph = .idle ∧ phaseAction Config.params s t = t) ∨
    (s.ph = .paceWait ∧ s.paceCnt = 0 ∧ phaseAction Config.params s t = openGate t) ∨
    (s.ph = .paceWait ∧ s.paceCnt ≠ 0 ∧ phaseAction Config.params s t = t) ∨
    (s.ph = .startLow ∧ s.tmr = 17999 ∧ phaseAction Config.params s t = enter .startHigh t) ∨
    (s.ph = .startLow ∧ s.tmr ≠ 17999 ∧ phaseAction Config.params s t = countTimer t) ∨
    (s.ph = .startHigh ∧ s.tmr = 29 ∧ phaseAction Config.params s t = enter .ackLow t) ∨
    (s.ph = .startHigh ∧ s.tmr ≠ 29 ∧ phaseAction Config.params s t = countTimer t) ∨
    (s.ph = .ackLow ∧ s.input.lineIn = false ∧ phaseAction Config.params s t = enter .ackHigh t) ∨
    (s.ph = .ackHigh ∧ s.input.lineIn = true ∧ phaseAction Config.params s t = enter .dataLow t) ∨
    (s.ph = .dataLow ∧ s.input.lineIn = false ∧ phaseAction Config.params s t = enter .bitHigh t) ∨
    (s.ph = .bitHigh ∧ s.input.lineIn = true ∧ phaseAction Config.params s t = enter .bitLow t) ∨
    (s.ph = .bitLow ∧ s.input.lineIn = false ∧ s.bitIdx.toNat ≠ 39 ∧
      phaseAction Config.params s t = storeBit (pulseBit 50 s.tmr) t) ∨
    (s.ph = .bitLow ∧ s.input.lineIn = false ∧ s.bitIdx.toNat = 39 ∧
      phaseAction Config.params s t = onFrame Config.params s.capturedFrame t) ∨
    (∃ level, waitTarget s.ph = some level ∧ s.input.lineIn ≠ level ∧ s.tmr = 200 ∧
      phaseAction Config.params s t = complete .timeout t) ∨
    (∃ level, waitTarget s.ph = some level ∧ s.input.lineIn ≠ level ∧ s.tmr ≠ 200 ∧
      phaseAction Config.params s t = countTimer t) :=
  phaseAction_cases_of Config.params s t

/-- What one step can do: reset, or the three parts of a tick in a state whose counters are in range. -/
theorem step_cases (s t : State) (h : step s = .next t) :
    (s.input.rst = true ∧ t = resetTick s) ∨
      (s.input.rst = false ∧ s.rangeFault Config.params = none ∧
        t = commandPart s (phaseAction Config.params s (elapse s))) := by
  by_cases hr : s.input.rst = true
  · rw [step_of_rst s hr] at h
    cases h
    exact .inl ⟨hr, rfl⟩
  · rw [Bool.not_eq_true] at hr
    rw [step_of_no_rst s hr, tickTo_next_iff, fetch_effect] at h
    exact .inr ⟨hr, h.1, h.2.symm⟩

/-- No step is refused. -/
theorem step_not_refused (s : State) (r : Refusal) : step s ≠ .refused r := by
  by_cases hr : s.input.rst = true
  · simp [step_of_rst s hr]
  · rw [Bool.not_eq_true] at hr
    rw [step_of_no_rst s hr]
    exact tickTo_not_refused _ _ _ _

/-! ## Runs -/

@[simp] theorem ticks_zero (s : State) : ticks 0 s = .next s := rfl

theorem ticks_succ_of_next (k : Nat) (s s' : State) (h : step s = .next s') : ticks (k + 1) s = ticks k s' := by
  simp [ticks, h]

theorem ticks_succ_next_iff (k : Nat) (s t : State) :
    ticks (k + 1) s = .next t ↔ ∃ s', step s = .next s' ∧ ticks k s' = .next t := by
  simp only [ticks]
  split <;> simp_all

/-- What holds at the start and is kept by every step holds along every run. -/
theorem ticks_keeps (P : State → Prop) (hstep : ∀ s t, P s → step s = .next t → P t) :
    ∀ k s t, P s → ticks k s = .next t → P t := by
  intro k
  induction k with
  | zero => intro s t hs h; cases h; exact hs
  | succ k ih =>
    intro s t hs h
    obtain ⟨s', h1, h2⟩ := (ticks_succ_next_iff k s t).1 h
    exact ih s' t (hstep s s' hs h1) h2

/-- A run is the host's run of the core. -/
theorem ticks_eq_run (k : Nat) (s : State) : ticks k s = Host.Core.run Sys2Proof.core k s := by
  induction k generalizing s with
  | zero => rfl
  | succ k ih =>
    rcases h : step s with s' | e | r
    · have hc : Sys2Proof.core.step s = .next s' := h
      simp only [ticks, Host.Core.run, h, hc]
      exact ih s'
    · have hc : Sys2Proof.core.step s = .fault e := h
      simp only [ticks, Host.Core.run, h, hc]
      rfl
    · have hc : Sys2Proof.core.step s = .refused r := h
      simp only [ticks, Host.Core.run, h, hc]
      rfl

/-! ## The inputs ahead -/

@[simp] theorem inputAt_zero (s : State) : s.inputAt 0 = s.input := by
  simp [State.inputAt, State.input]

/-- A step moves the inputs ahead one tick nearer. -/
theorem inputAt_of_moved (s t : State) (hi : t.inputs = s.inputs.tail) (ht : t.tick = s.tick + 1) (j : Nat) :
    t.inputAt j = s.inputAt (j + 1) := by
  unfold State.inputAt
  rw [hi, ht, List.drop_tail, show s.tick + 1 + j = s.tick + (j + 1) by omega]

/-- No reset is ahead for as long as the list reaches and asks for none. -/
theorem noResetFor_of_listed (s : State) (n : Nat) (hn : n ≤ s.inputs.length)
    (h : ∀ i ∈ s.inputs, i.rst = false) : s.noResetFor n := by
  intro j hj
  unfold State.inputAt
  have hlt : j < s.inputs.length := by omega
  rw [List.drop_eq_getElem_cons hlt]
  exact h _ (List.getElem_mem hlt)

end Sys2Proof.Machine
end

