-- ==== Sys2Proof/Tests/Slice0.lean ====
section
/-! SUPPORT. Tests: words written out from the encodings, refused words, one-step vectors of 95_test_vectors.md, and for
every obligation with hypotheses a state that meets them. No expected result is the model's own answer. -/

namespace Sys2Proof.Tests

open Sys2Proof.Machine

/-! ## Words written out bit by bit (30_encoding.md R60 to R67, R71) -/

/-- The instruction a word decodes to. -/
def decoded (e : Encoded) : Option Instr :=
  match decode e with
  | .ok i => some i
  | .error _ => none

theorem test_decode_nop : decoded (.cmd 0b00000000000000000000000000000000#32) = some (.nop 0) := by decide
theorem test_decode_init : decoded (.cmd 0b00000000000000000000010000000001#32) = some (.init 4 0 0) := by decide
theorem test_decode_init_ignored :
    decoded (.cmd 0b11111111111111111111111100000001#32) = some (.init 0xFF 0xFFFF 0) := by decide
theorem test_decode_init_order :
    decoded (.cmd 0b10000000000000010101001100001001#32) = some (.init 0x53 0x8001 2) := by decide
theorem test_decode_read : decoded (.cmd 0b00000000000000000000000000000010#32) = some (.read 0) := by decide
theorem test_decode_read_ignored :
    decoded (.cmd 0b00000000000000000000100100000110#32) = some (.read 0x241) := by decide
theorem test_decode_rsvd : decoded (.cmd 0b00000000000000000000000000000011#32) = some (.rsvd 0) := by decide
theorem test_decode_idle : decoded (.phase 0b0000#4) = some .idle := by decide
theorem test_decode_paceWait : decoded (.phase 0b0001#4) = some .paceWait := by decide
theorem test_decode_startLow : decoded (.phase 0b0010#4) = some .startLow := by decide
theorem test_decode_startHigh : decoded (.phase 0b0011#4) = some .startHigh := by decide
theorem test_decode_ackLow : decoded (.phase 0b0100#4) = some .ackLow := by decide
theorem test_decode_ackHigh : decoded (.phase 0b0101#4) = some .ackHigh := by decide
theorem test_decode_dataLow : decoded (.phase 0b0110#4) = some .dataLow := by decide
theorem test_decode_bitHigh : decoded (.phase 0b0111#4) = some .bitHigh := by decide
theorem test_decode_bitLow : decoded (.phase 0b1000#4) = some .bitLow := by decide
theorem test_decode_ok : decoded (.result 0b000#3) = some .ok := by decide
theorem test_decode_notInitialized : decoded (.result 0b001#3) = some .notInitialized := by decide
theorem test_decode_timeout : decoded (.result 0b010#3) = some .timeout := by decide
theorem test_decode_checksumError : decoded (.result 0b011#3) = some .checksumError := by decide
theorem test_decode_invalidData : decoded (.result 0b100#3) = some .invalidData := by decide
theorem test_decode_neverRead : decoded (.paceState 0b00#2) = some .neverRead := by decide
theorem test_decode_ready : decoded (.paceState 0b01#2) = some .ready := by decide
theorem test_decode_mustWait : decoded (.paceState 0b10#2) = some .mustWait := by decide
/-- S8 corrected: `02 8C 80 32 40`. -/
theorem test_decode_frame :
    decoded (.frame 0b0000001010001100100000000011001001000000#40) = some (.frame 0x028C true 0x0032 0x40) := by decide
/-- Bit 6 of byte 2 belongs to the magnitude (V-VAL-14). -/
theorem test_decode_frame_mag :
    decoded (.frame 0b0000000000000000010000000000000001000000#40) = some (.frame 0 false 16384 0x40) := by decide

/-! ## Refused words: one ill-formed term for each check of WellFormed -/

theorem test_phase_9_refused :
    Encoded.wellFormed (.phase 9) = false ∧ decode (.phase 9) = .error (.noSuchPhase 9) := by decide
theorem test_phase_15_refused :
    Encoded.wellFormed (.phase 15) = false ∧ decode (.phase 15) = .error (.noSuchPhase 15) := by decide
theorem test_result_5_refused :
    Encoded.wellFormed (.result 5) = false ∧ decode (.result 5) = .error (.noSuchResult 5) := by decide
theorem test_paceState_3_refused :
    Encoded.wellFormed (.paceState 3) = false ∧ decode (.paceState 3) = .error (.noSuchPaceState 3) := by decide
theorem test_nop_not_canonical : Instr.canonical (.nop 1) = false := by decide
theorem test_init_not_canonical :
    Instr.canonical (.init 4 1 0) = false ∧ Instr.canonical (.init 4 0 1) = false := by decide
theorem test_read_not_canonical : Instr.canonical (.read 1) = false := by decide
theorem test_rsvd_not_canonical : Instr.canonical (.rsvd 1) = false := by decide
theorem test_init_canonical : Instr.canonical (.init 4 0 0) = true := by decide
theorem test_table_width_refused : decodeTableWord 16 0 = none ∧ decodeTableWord 8 9 = none := by decide

/-! ## Small states -/

/-- An input with no reset, no write, and the given level. -/
def quiet (line : Bool) : Input := quietInput line

/-- An input that presents a command word, the line high. -/
def writes (w : Word) : Input := inputWithCmd (quiet true) w

/-- ResetState with inputs in front of it. -/
def fromReset (inputs : List Input) : State := { State.reset with inputs := inputs }

/-- An initialized block (`pin` 4) in IDLE, the gate open, no capture yet. -/
def ready4 (inputs : List Input) : State := { fromReset inputs with initialized := true, pin := 4 }

/-- The same block in a phase of a READ, with a timer value. -/
def inPhase (p : Phase) (tmr : Nat) (inputs : List Input) : State := { ready4 inputs with ph := p, tmr := tmr }

/-- The same block waiting for the end of bit `idx`'s pulse. -/
def inBit (idx : BitVec 6) (frame : Frame) (tmr : Nat) (line : Bool) : State :=
  { inPhase .bitLow tmr [quiet line] with bitIdx := idx, frame := frame }

/-- The state after one tick. -/
def after (s : State) : Option State :=
  match step s with
  | .next t => some t
  | .fault _ => none
  | .refused _ => none

/-- STATUS after one tick. -/
def statusAfter (s : State) : Option Word := (after s).map fun t => t.regRead 1

/-! ## Vectors of 95_test_vectors.md, one tick each -/

/-- V-CMD-2. -/
theorem test_init_status :
    (after (fromReset [writes 0x00000401])).map (fun t => (t.regRead 1, t.regRead 5, t.pullEn, t.pinSel, t.lineOe)) =
      some (0x00000001, 0x00000004, true, 4, false) := by decide
/-- V-CMD-3: the ignored bits have no effect. -/
theorem test_init_ignored_bits :
    (after (fromReset [writes 0xFFFFFF01])).map (fun t => (t.regRead 1, t.regRead 5)) =
      some (0x00000001, 0x000000FF) := by decide
/-- V-CMD-4. -/
theorem test_read_uninitialized : statusAfter (fromReset [writes 2]) = some 0x00000014 := by decide
/-- V-CMD-7, tick 1. -/
theorem test_read_accepted : statusAfter (ready4 [writes 2]) = some 0x00010003 := by decide
/-- V-CMD-6. -/
theorem test_rsvd_status : statusAfter (fromReset [writes 3]) = some 0x00000008 := by decide
/-- V-CMD-9: a NOP while busy does not set `cmd_fault`. -/
theorem test_nop_busy :
    (after (inPhase .startLow 48 [writes 0])).map (fun t => (t.cmdFault, t.tmr)) = some (false, 49) := by decide
/-- V-CMD-8: an INIT while busy is dropped with `cmd_fault`. -/
theorem test_init_busy :
    (after (inPhase .startLow 97 [writes 0x00000901])).map (fun t => (t.regRead 1, t.pin, t.tmr)) =
      some (0x0002000B, 4, 98) := by decide
/-- V-CMD-13. -/
theorem test_write_elsewhere :
    after (ready4 [{ quiet true with regWe := true, regAddr := 5, regWdata := 0xFFFFFFFF }]) =
      after (ready4 [quiet true]) := by decide
/-- R88, the example: from ResetState with no write the state stays. -/
theorem test_idle_stays :
    (after (fromReset [quiet false])).map (fun t => { t with tick := 0 }) = some State.reset := by decide
/-- V-CMD-7, tick 2. -/
theorem test_paceWait_open :
    (after (inPhase .paceWait 7 [quiet true])).map (fun t => (t.regRead 1, t.lineOe, t.lineOut, t.tmr)) =
      some (0x00020003, true, false, 0) := by decide
/-- V-PACE-2 and V-PACE-3: held at 1, let through at 0. -/
theorem test_paceWait_holds :
    (after { inPhase .paceWait 7 [quiet true] with hasRead := true, paceCnt := 1 }).map (fun t => (t.ph, t.paceCnt)) =
      some (.paceWait, 0) := by decide
/-- V-HS-1: `tmr` 17999 is the last tick of START_LOW. -/
theorem test_startLow_last :
    (after (inPhase .startLow 17999 [quiet false])).map (fun t => (t.ph, t.tmr)) = some (.startHigh, 0) := by decide
/-- V-HS-1: `tmr` 29 is the last tick of START_HIGH. -/
theorem test_startHigh_last :
    (after (inPhase .startHigh 29 [quiet false])).map (fun t => (t.ph, t.tmr, t.lineOe)) =
      some (.ackLow, 0, false) := by decide
/-- V-WAIT-3: success wins in the tick of the last sample. -/
theorem test_ackLow_boundary :
    (after (inPhase .ackLow 200 [quiet false])).map (fun t => (t.ph, t.tmr)) = some (.ackHigh, 0) := by decide
/-- V-WAIT-4, V-HS-3. -/
theorem test_ackLow_timeout :
    (after (inPhase .ackLow 200 [quiet true])).map (fun t => (t.regRead 1, t.tmr)) = some (0x00000025, 200) := by decide
/-- V-HS-2. -/
theorem test_ackHigh_success :
    (after (inPhase .ackHigh 79 [quiet true])).map (fun t => (t.ph, t.tmr)) = some (.dataLow, 0) := by decide
/-- V-HS-2. -/
theorem test_dataLow_success :
    (after (inPhase .dataLow 79 [quiet false])).map (fun t => (t.ph, t.tmr, t.bitIdx)) =
      some (.bitHigh, 0, 0) := by decide
/-- V-BIT-7, `G = 201`: BIT_HIGH succeeds at 200. -/
theorem test_bitHigh_boundary :
    (after (inPhase .bitHigh 200 [quiet true])).map (fun t => (t.ph, t.tmr)) = some (.bitLow, 0) := by decide
/-- V-BIT-3: `W = 50` is a 0. -/
theorem test_bit_tie :
    (after (inBit 0 0 49 false)).map (fun t => (t.frame, t.bitIdx, t.ph)) = some (0, 1, .bitHigh) := by decide
/-- V-BIT-3 and V-BIT-8, `i = 8`: `W = 51` is a 1. -/
theorem test_bit_one :
    (after (inBit 8 0 50 false)).map (fun t => (t.frame, t.bitIdx)) = some (0x0080000000, 9) := by decide
/-- V-VAL-1 with V-EXC-1: the fortieth bit completes `01 90 00 C8 59`. -/
theorem test_frame_ok :
    (after (inBit 39 0x019000C858 69 false)).map (fun t => (t.regRead 1, t.regRead 2, t.regRead 3, t.regRead 4)) =
      some (0x27000205, 0x000000C8, 0x00000190, 1999999) := by decide
/-- V-VAL-3: sign and magnitude in, two's complement out. -/
theorem test_frame_negative :
    (after (inBit 39 0x028C803240 27 false)).map (fun t => (t.regRead 2, t.regRead 3)) =
      some (0xFFFFFFCE, 0x0000028C) := by decide
/-- V-VAL-16: a frame that fails both checks reports the checksum (V-EXC-1). -/
theorem test_frame_checksum_first : statusAfter (inBit 39 0x03E9032110 69 false) = some 0x27000235 := by decide
/-- V-VAL-5: humidity 100.1 %. -/
theorem test_frame_invalid :
    (after (inBit 39 0x03E90000EC 27 false)).map (fun t => (t.regRead 1, t.tempX10, t.humX10)) =
      some (0x27000245, 0, 0) := by decide
/-- V-RST-1: the write is lost. -/
theorem test_reset_beats_write :
    (after (fromReset [{ writes 0x00000401 with rst := true }])).map (fun t => { t with tick := 0 }) =
      some State.reset := by decide
/-- V-PACE-8. -/
theorem test_remaining_ms :
    [1999999, 1001, 1000, 1, 0].map ceilMs = [2000, 2, 1, 1, 0] := by decide

/-! ## Other constants (00_scope.md R7, 92_eei_decisions.md D2, D22): the rules with the numbers of `other` put in -/

/-- Constants that need wider counters than the defaults. -/
def other : Config.Params :=
  { startLowUs := 40000, edgeTimeoutUs := 300, bitThresholdUs := 60, minIntervalMs := 2500, tempMaxX10 := 900 }

/-- The state after one tick of a block with the constants `other`. -/
def afterOther (s : State) : Option State :=
  match stepWith other s with
  | .next t => some t
  | .fault _ => none
  | .refused _ => none

/-- D22: `TMR_W = ceil(log2 40000)` and `PACE_W = ceil(log2 2500000)`. -/
theorem test_other_widths : other.tmrW = 16 ∧ other.paceW = 22 := by decide
/-- R110 with START_LOW_US = 40000. -/
theorem test_other_startLow :
    (afterOther (inPhase .startLow 39999 [quiet true])).map (fun t => (t.ph, t.tmr)) = some (.startHigh, 0) ∧
      (afterOther (inPhase .startLow 17999 [quiet true])).map (fun t => (t.ph, t.tmr)) = some (.startLow, 18000) := by
  decide
/-- R101 with EDGE_TIMEOUT_US = 300. -/
theorem test_other_timeout :
    (afterOther (inPhase .ackLow 200 [quiet true])).map (fun t => (t.ph, t.tmr)) = some (.ackLow, 201) ∧
      (afterOther (inPhase .ackLow 300 [quiet true])).map (fun t => (t.ph, t.result)) = some (.idle, .timeout) := by decide
/-- R123 with BIT_THRESHOLD_US = 60: `W = 60` is a 0, `W = 61` a 1. -/
theorem test_other_threshold :
    (afterOther (inBit 0 0 59 false)).map (fun t => t.frame) = some 0 ∧
      (afterOther (inBit 0 0 60 false)).map (fun t => t.frame) = some 0x8000000000 := by decide
/-- R144 and R163 with TEMP_MAX_X10 = 900 and MIN_INTERVAL_MS = 2500: the frame of V-VAL-8 passes. -/
theorem test_other_capture :
    (afterOther (inBit 39 0x0000032124 27 false)).map (fun t => (t.result, t.paceCnt, t.tempX10)) =
      some (.ok, 2499999, 801) := by decide

/-! ## A table word as the first instruction after reset (log entry 13) -/

/-- The READ of an uninitialized block ends NotInitialized (V-EXC-1). -/
theorem test_first_read : statusAfter (State.reset.withFetchWord 32 2) = some 0x00000014 := by decide
/-- BIT_LOW with the line high counts (R101). -/
theorem test_first_bitLow :
    (after (State.reset.withFetchWord 8 8)).map (fun t => (t.ph, t.tmr)) = some (.bitLow, 1) := by decide
/-- A capture that ends InvalidData (R179). -/
theorem test_first_invalidData :
    (after (State.reset.withFetchWord 3 4)).map (fun t => (t.result, t.done, t.ph, t.hasRead, t.paceCnt)) =
      some (.invalidData, true, .idle, true, 1999999) := by decide
/-- MUST_WAIT holds the READ (R162). -/
theorem test_first_mustWait :
    (after (State.reset.withFetchWord 2 2)).map (fun t => t.ph) = some .paceWait := by decide
/-- The frame of V-VAL-3. -/
theorem test_first_frame :
    (after (State.reset.withFetchWord 40 0x028C803240)).map (fun t => (t.tempX10.toInt, t.humX10, t.result)) =
      some (-50, 652, .ok) := by decide

/-! ## Witnesses: states that meet the obligations' hypotheses -/

/-- A state in range at the edge of every range, in a given phase. -/
def atEdge (p : Phase) : State :=
  { inPhase p 17999 [quiet true] with bitIdx := 39, hasRead := true, paceCnt := 1999999 }

theorem test_witness_EncodeInvertsDecode : decode (.cmd 0xFFFFFF01) = .ok (.init 0xFF 0xFFFF 0) := by decide
theorem test_witness_LowBitsChooseTheCommand :
    (0xFFFFFFFC#32).extractLsb' 0 2 = 0 ∧ (0xFFFFFF01#32).extractLsb' 0 2 = 1 ∧ (0x00000906#32).extractLsb' 0 2 = 2 ∧
      (0xFFFFFFFF#32).extractLsb' 0 2 = 3 := by decide
theorem test_witness_IgnoredBitsNeverMatter :
    (0xFFFF04FD#32).extractLsb' 0 2 = (0x00000401#32).extractLsb' 0 2 ∧
      (0xFFFF04FD#32).extractLsb' 8 8 = (0x00000401#32).extractLsb' 8 8 := by decide
theorem test_witness_StepRunsTheDecodedInstruction_command :
    (ready4 [writes 2]).input.rst = false ∧ (ready4 [writes 2]).input.regWe = true ∧
      (ready4 [writes 2]).input.regAddr = 0 ∧ decode (.cmd (ready4 [writes 2]).input.regWdata) = .ok (.read 0) := by
  decide
theorem test_witness_StepRunsTheDecodedInstruction_phase :
    (inPhase .ackLow 3 [quiet true]).input.rst = false ∧ (inPhase .ackLow 3 [quiet true]).input.regWe = false ∧
      decode (.phase (inPhase .ackLow 3 [quiet true]).ph.code) = .ok .ackLow := by decide
theorem test_witness_TableWordRunsNext :
    decodeTableWord 32 2 = some (.read 0) ∧ decodeTableWord 40 0x019000C859 = some (.frame 0x190 false 0xC8 0x59) ∧
      decodeTableWord 8 8 = some .bitLow ∧ decodeTableWord 4 1 = some .paceWait ∧
      decodeTableWord 3 4 = some .invalidData ∧ decodeTableWord 2 2 = some .mustWait := by decide
theorem test_witness_ResetBeatsEverything :
    (fromReset [{ writes 0x00000401 with rst := true }]).input.rst = true := by decide
theorem test_witness_EveryInstructionCompletes : (atEdge .idle).inRange := ⟨by decide, by decide, by decide⟩
theorem test_witness_OutOfRangeIsStuck :
    17999 < ({ ready4 [] with tmr := 18000 } : State).tmr ∧
      39 < ({ ready4 [] with bitIdx := 40 } : State).bitIdx.toNat ∧
      1999999 < ({ ready4 [] with paceCnt := 2000000 } : State).paceCnt := by decide
theorem test_witness_NopHasNoEffect : (atEdge .startLow).inRange := ⟨by decide, by decide, by decide⟩
theorem test_witness_InitAccepted : (atEdge .idle).inRange ∧ (atEdge .idle).ph = .idle :=
  ⟨⟨by decide, by decide, by decide⟩, rfl⟩
theorem test_witness_ReadAccepted :
    (atEdge .idle).inRange ∧ (atEdge .idle).ph = .idle ∧ (atEdge .idle).initialized = true :=
  ⟨⟨by decide, by decide, by decide⟩, rfl, rfl⟩
theorem test_witness_ReadUninitialized :
    (fromReset []).inRange ∧ (fromReset []).ph = .idle ∧ (fromReset []).initialized = false ∧ (fromReset []).paceCnt = 0 :=
  ⟨⟨by decide, by decide, by decide⟩, rfl, rfl, rfl⟩
theorem test_witness_RsvdSetsCmdFault : (atEdge .paceWait).inRange := ⟨by decide, by decide, by decide⟩
theorem test_witness_BusyCommandIsDropped :
    (inPhase .startLow 97 []).ph ≠ .idle ∧
      ∃ t, exec (inPhase .startLow 97 []).ph.instr (inPhase .startLow 97 []) = .next t := ⟨by decide, _, rfl⟩
theorem test_witness_IdleOnlyCountsDown : (atEdge .idle).inRange ∧ (atEdge .idle).ph = .idle :=
  ⟨⟨by decide, by decide, by decide⟩, rfl⟩
theorem test_witness_PaceWaitHoldsUntilZero :
    ((inPhase .paceWait 0 []).inRange ∧ (inPhase .paceWait 0 []).paceCnt = 0 ∧ (inPhase .paceWait 0 []).ph = .paceWait) ∧
      (atEdge .paceWait).inRange ∧ (atEdge .paceWait).paceCnt ≠ 0 :=
  ⟨⟨⟨by decide, by decide, by decide⟩, rfl, rfl⟩, ⟨by decide, by decide, by decide⟩, by decide⟩
theorem test_witness_GateStatesActOnAHeldRead :
    (inPhase .paceWait 0 []).inRange ∧ ((inPhase .paceWait 0 []).hasRead = false → (inPhase .paceWait 0 []).paceCnt = 0) ∧
      (atEdge .paceWait).inRange ∧ ((atEdge .paceWait).hasRead = false → (atEdge .paceWait).paceCnt = 0) :=
  ⟨⟨by decide, by decide, by decide⟩, by decide, ⟨by decide, by decide, by decide⟩, by decide⟩
theorem test_witness_HoldPhasesCount :
    ((inPhase .startLow 17999 []).inRange ∧ (inPhase .startLow 17999 []).tmr = 17999) ∧
      ((inPhase .startLow 17998 []).inRange ∧ (inPhase .startLow 17998 []).tmr ≠ 17999) ∧
      ((inPhase .startHigh 29 []).inRange ∧ (inPhase .startHigh 29 []).tmr = 29) ∧
      (inPhase .startHigh 28 []).inRange ∧ (inPhase .startHigh 28 []).tmr ≠ 29 :=
  ⟨⟨⟨by decide, by decide, by decide⟩, by decide⟩, ⟨⟨by decide, by decide, by decide⟩, by decide⟩,
    ⟨⟨by decide, by decide, by decide⟩, by decide⟩, ⟨by decide, by decide, by decide⟩, by decide⟩
theorem test_witness_HoldPhasesCount_parameters :
    ((inPhase .startLow 39999 []).rangeFault other = none ∧ (inPhase .startLow 39999 []).tmr = other.startLowUs - 1) ∧
      ((inPhase .startLow 39998 []).rangeFault other = none ∧ (inPhase .startLow 39998 []).tmr ≠ other.startLowUs - 1) ∧
      ((inPhase .startHigh 29 []).rangeFault other = none ∧ (inPhase .startHigh 29 []).tmr = other.startHighUs - 1) ∧
      (inPhase .startHigh 28 []).rangeFault other = none ∧ (inPhase .startHigh 28 []).tmr ≠ other.startHighUs - 1 := by
  decide
/-- A duration of 0 in both hold phases (log entry 4): the clauses for it have states too. -/
theorem test_witness_HoldPhasesCount_zero :
    let p : Config.Params := { startLowUs := 0, startHighUs := 0 }
    ((inPhase .startLow 0 []).rangeFault p = none ∧ (inPhase .startLow 0 []).tmr = p.startLowUs - 1) ∧
      (inPhase .startHigh 0 []).rangeFault p = none ∧ (inPhase .startHigh 0 []).tmr = p.startHighUs - 1 := by decide
/-- The same waits with the constants `other`, at 300 and at 299. -/
theorem test_witness_WaitPhasesStep_parameters :
    ∀ p ∈ [Phase.ackLow, Phase.ackHigh, Phase.dataLow, Phase.bitHigh], ∀ line ∈ [false, true],
      (inPhase p 300 [quiet line]).rangeFault other = none ∧ (inPhase p 300 [quiet line]).input.lineIn = line ∧
        (inPhase p 300 [quiet line]).tmr = other.edgeTimeoutUs ∧ (inPhase p 299 [quiet line]).rangeFault other = none ∧
        (inPhase p 299 [quiet line]).tmr ≠ other.edgeTimeoutUs := by decide
/-- Each wait of the statement, with both levels of the line, at 200 and at 199. -/
theorem test_witness_WaitPhasesStep :
    ∀ p ∈ [Phase.ackLow, Phase.ackHigh, Phase.dataLow, Phase.bitHigh], ∀ line ∈ [false, true],
      (inPhase p 200 [quiet line]).inRange ∧ (inPhase p 200 [quiet line]).input.lineIn = line ∧
        (inPhase p 200 [quiet line]).tmr = 200 ∧ (inPhase p 199 [quiet line]).inRange ∧
        (inPhase p 199 [quiet line]).input.lineIn = line ∧ (inPhase p 199 [quiet line]).tmr ≠ 200 := by
  unfold State.inRange
  decide
theorem test_witness_BitLowStoresTheBit :
    (inBit 38 0 50 false).inRange ∧ (inBit 38 0 50 false).input.lineIn = false ∧ (inBit 38 0 50 false).bitIdx.toNat < 39 :=
  ⟨⟨by decide, by decide, by decide⟩, rfl, by decide⟩
theorem test_witness_BitLowStoresTheBit_parameters :
    (inBit 38 0 60 false).rangeFault other = none ∧ (inBit 38 0 60 false).input.lineIn = false ∧
      (inBit 38 0 60 false).bitIdx.toNat < 39 := by decide
theorem test_witness_BitLowCapturesTheFrame :
    (inBit 39 0x019000C858 50 false).inRange ∧ (inBit 39 0x019000C858 50 false).input.lineIn = false ∧
      (inBit 39 0x019000C858 50 false).bitIdx.toNat = 39 ∧
      (∀ j, j < 40 → (0x019000C859#40).getLsbD j =
        if j = 0 then decide (51 ≤ (inBit 39 0x019000C858 50 false).tmr + 1)
        else (inBit 39 0x019000C858 50 false).frame.getLsbD j) ∧
      decode (.frame 0x019000C859) = .ok (.frame 0x190 false 0xC8 0x59) :=
  ⟨⟨by decide, by decide, by decide⟩, rfl, by decide, by decide, by decide⟩
theorem test_witness_BitLowTimesOut :
    ((inBit 17 0 200 true).inRange ∧ (inBit 17 0 200 true).input.lineIn = true ∧ (inBit 17 0 200 true).tmr = 200) ∧
      (inBit 17 0 199 true).inRange ∧ (inBit 17 0 199 true).input.lineIn = true ∧ (inBit 17 0 199 true).tmr ≠ 200 :=
  ⟨⟨⟨by decide, by decide, by decide⟩, rfl, by decide⟩, ⟨by decide, by decide, by decide⟩, rfl, by decide⟩
/-- The source's S8 as printed: `02 8C 80 32 FF`. -/
theorem test_witness_FrameChecksumError :
    (inBit 39 0 0 false).inRange ∧
      ((0x028C#16).toNat / 256 + (0x028C#16).toNat % 256 + (true.toNat * 128 + (0x32#15).toNat / 256) + (0x32#15).toNat % 256)
        % 256 ≠ (0xFF#8).toNat := ⟨⟨by decide, by decide, by decide⟩, by decide⟩
/-- V-VAL-5, V-VAL-8 and V-VAL-7, each just outside one bound. -/
theorem test_witness_FrameInvalidData :
    (inBit 39 0 0 false).inRange ∧
      (((1001#16).toNat / 256 + (1001#16).toNat % 256 + (false.toNat * 128 + (0#15).toNat / 256) + (0#15).toNat % 256) % 256
        = (0xEC#8).toNat ∧ 1000 < (1001#16).toNat) ∧
      (((0#16).toNat / 256 + (0#16).toNat % 256 + (false.toNat * 128 + (801#15).toNat / 256) + (801#15).toNat % 256) % 256
        = (0x24#8).toNat ∧ 800 < (801#15).toNat) ∧
      ((0#16).toNat / 256 + (0#16).toNat % 256 + (true.toNat * 128 + (401#15).toNat / 256) + (401#15).toNat % 256) % 256
        = (0x12#8).toNat ∧ 400 < (401#15).toNat := ⟨⟨by decide, by decide, by decide⟩, by decide⟩
/-- V-VAL-4 and V-VAL-13, on the bounds. -/
theorem test_witness_FrameOk :
    (inBit 39 0 0 false).inRange ∧
      (((1000#16).toNat / 256 + (1000#16).toNat % 256 + (false.toNat * 128 + (800#15).toNat / 256) + (800#15).toNat % 256) % 256
        = (0x0E#8).toNat ∧ (1000#16).toNat ≤ 1000 ∧ (800#15).toNat ≤ 800) ∧
      ((1000#16).toNat / 256 + (1000#16).toNat % 256 + (true.toNat * 128 + (400#15).toNat / 256) + (400#15).toNat % 256) % 256
        = (0xFC#8).toNat ∧ (400#15).toNat ≤ 400 := ⟨⟨by decide, by decide, by decide⟩, by decide⟩
theorem test_witness_CompletionRows :
    (inBit 39 0x019000C859 0 false).inRange ∧ (inBit 39 0x019000C859 0 false).rangeFault other = none :=
  ⟨⟨by decide, by decide, by decide⟩, by decide⟩
theorem test_witness_RegisterReads : (atEdge .idle).paceCnt < 2 ^ 32 := by decide

/-! ### States that have the invariant -/

/-- An initialized block after a capture, `c` ticks of the interval left. -/
def afterCapture (c : Nat) (inputs : List Input) : State := { ready4 inputs with hasRead := true, paceCnt := c }

theorem inv_ready4 (l : List Input) : (ready4 l).Inv := by
  constructor <;> simp [ready4, fromReset, State.reset, phaseIsWait, State.lineOe]
theorem inv_afterCapture (l : List Input) : (afterCapture 1999999 l).Inv := by
  constructor <;> simp [afterCapture, ready4, fromReset, State.reset, phaseIsWait, State.lineOe]
theorem inv_inBit (f : Frame) : (inBit 39 f 69 false).Inv := by
  constructor <;> simp [inBit, inPhase, ready4, fromReset, State.reset, phaseIsWait, State.lineOe]
theorem inv_ackLow (l : List Input) : (inPhase .ackLow 200 l).Inv := by
  constructor <;> simp [inPhase, ready4, fromReset, State.reset, phaseIsWait, State.lineOe]
theorem inv_startLow (l : List Input) : (inPhase .startLow 0 l).Inv := by
  constructor <;> simp [inPhase, ready4, fromReset, State.reset, phaseIsWait, State.lineOe]
theorem inv_ackLow_entry (l : List Input) : (inPhase .ackLow 0 l).Inv := by
  constructor <;> simp [inPhase, ready4, fromReset, State.reset, phaseIsWait, State.lineOe]

theorem inv_afterCapture_one (l : List Input) : (afterCapture 1 l).Inv := by
  constructor <;> simp [afterCapture, ready4, fromReset, State.reset, phaseIsWait, State.lineOe]
theorem inv_afterCapture_zero (l : List Input) : (afterCapture 0 l).Inv := by
  constructor <;> simp [afterCapture, ready4, fromReset, State.reset, phaseIsWait, State.lineOe]

/-- NeverRead, Ready, and MustWait at both ends of its range. -/
theorem test_witness_PacingStateView :
    ((ready4 []).Inv ∧ (ready4 []).hasRead = false) ∧ (afterCapture 0 []).Inv ∧ (afterCapture 1 []).Inv ∧
      ((afterCapture 1999999 []).Inv ∧ (afterCapture 1999999 []).hasRead = true ∧
        (afterCapture 1999999 []).paceCnt ≠ 0) :=
  ⟨⟨inv_ready4 _, rfl⟩, inv_afterCapture_zero _, inv_afterCapture_one _, inv_afterCapture _, rfl, by decide⟩
theorem test_witness_OtherWritesAreIgnored :
    (ready4 [{ writes 3 with regAddr := 1 }]).input.regAddr ≠ 0 ∧
      (ready4 [{ writes 3 with regAddr := 7 }]).input.regAddr ≠ 0 := by decide
theorem test_witness_ReadsHaveNoSideEffect : (inPhase .ackLow 3 [quiet true]).input.regWe = false := rfl
theorem test_witness_LineReadOnlyInWaitPhases :
    phaseIsWait (inPhase .startHigh 29 []).ph = false ∧ phaseIsWait (inPhase .bitLow 0 []).ph = true := by decide
theorem test_witness_PaceCounterEveryTick_capture :
    (inBit 39 0x019000C858 69 false).Inv ∧ (∃ t, step (inBit 39 0x019000C858 69 false) = .next t) ∧
      (inBit 39 0x019000C858 69 false).input.rst = false ∧ (inBit 39 0x019000C858 69 false).captures :=
  ⟨inv_inBit _, ⟨_, rfl⟩, rfl, rfl, rfl, rfl, rfl⟩
theorem test_witness_PaceCounterEveryTick_init :
    (afterCapture 1999999 [writes 0x401]).Inv ∧ (∃ t, step (afterCapture 1999999 [writes 0x401]) = .next t) ∧
      (afterCapture 1999999 [writes 0x401]).input.rst = false ∧ (afterCapture 1999999 [writes 0x401]).acceptsInit :=
  ⟨inv_afterCapture _, ⟨_, rfl⟩, rfl, ⟨rfl, rfl, rfl⟩, by decide⟩
theorem test_witness_PaceCounterEveryTick_other :
    (afterCapture 1999999 [quiet true]).Inv ∧ (∃ t, step (afterCapture 1999999 [quiet true]) = .next t) ∧
      (afterCapture 1999999 [quiet true]).input.rst = false ∧ ¬ (afterCapture 1999999 [quiet true]).captures ∧
      ¬ (afterCapture 1999999 [quiet true]).acceptsInit := by
  refine ⟨inv_afterCapture _, ⟨_, rfl⟩, rfl, ?_, ?_⟩
  · rintro ⟨-, h, -⟩
    cases h
  · rintro ⟨⟨-, h, -⟩, -⟩
    cases h
theorem test_witness_ModeLeftOnlyByReset :
    (∃ t, step (fromReset [writes 0x401]) = .next t) ∧ (fromReset [writes 0x401]).input.rst = false ∧
      (fromReset [writes 0x401]).acceptsInit := ⟨⟨_, rfl⟩, rfl, ⟨rfl, rfl, rfl⟩, by decide⟩
theorem test_witness_CmdFaultCauses : ∃ t, step (inPhase .startLow 97 [writes 0x901]) = .next t := ⟨_, rfl⟩
theorem test_witness_ReadingChangesOnlyOnOk :
    (inBit 39 0x019000C858 69 false).input.rst = false ∧
      (after (inBit 39 0x019000C858 69 false)).map (fun t => (t.tempX10, t.humX10)) = some (200, 400) := by decide
/-- A result that changes at the end of a READ, one that changes at an acceptance, `done` rising and falling. -/
theorem test_witness_ResultChangesOnlyOnCompletion :
    ((inPhase .ackLow 200 [quiet true]).input.rst = false ∧ (inPhase .ackLow 200 [quiet true]).ph ≠ .idle ∧
      (inPhase .ackLow 200 [quiet true]).result = .ok ∧ (inPhase .ackLow 200 [quiet true]).done = false ∧
      (after (inPhase .ackLow 200 [quiet true])).map (fun t => (t.result, t.done, t.ph)) = some (.timeout, true, .idle)) ∧
    ((fromReset [writes 2]).input.rst = false ∧ (fromReset [writes 2]).initialized = false ∧
      (after (fromReset [writes 2])).map (fun t => (t.result, t.done)) = some (.notInitialized, true)) ∧
    (after { ready4 [writes 2] with done := true }).map (fun t => t.done) = some false := by decide
theorem test_witness_TimeoutNeverLoadsTheGate :
    (inPhase .ackLow 200 [quiet true]).ph ≠ .idle ∧ (inPhase .ackLow 200 [quiet true]).input.rst = false ∧
      (after (inPhase .ackLow 200 [quiet true])).map (fun t => (t.ph, t.result)) = some (.idle, .timeout) := by decide
theorem test_witness_PhaseTransitionsAreTheTables :
    (inPhase .ackLow 200 [quiet false]).Inv ∧ ∃ t, step (inPhase .ackLow 200 [quiet false]) = .next t :=
  ⟨inv_ackLow _, _, rfl⟩
theorem test_witness_EveryStepKeepsInv :
    (inBit 39 0x019000C858 69 false).Inv ∧ ∃ t, step (inBit 39 0x019000C858 69 false) = .next t :=
  ⟨inv_inBit _, _, rfl⟩
theorem test_witness_RunningStatesAreInRange : (afterCapture 1999999 []).Inv := inv_afterCapture _
theorem test_witness_EveryStepKeepsFreshFrame :
    (inBit 1 0x8000000000 69 false).FreshFrame ∧ ∃ t, step (inBit 1 0x8000000000 69 false) = .next t := by
  refine ⟨⟨fun h => ?_, fun _ => ⟨by decide, fun i h1 h2 => ?_⟩⟩, _, rfl⟩
  · rcases h with h | h | h | h | h <;> cases h
  · have h1 : 1 ≤ i := h1
    change (0x8000000000#40).getLsbD (39 - i) = false
    interval_cases i <;> rfl
theorem test_witness_EveryStepKeepsUninitClean :
    (fromReset [writes 2]).UninitClean ∧ ∃ t, step (fromReset [writes 2]) = .next t := by
  refine ⟨?_, _, rfl⟩
  constructor <;> simp [fromReset, State.reset]
theorem test_witness_EveryStepKeepsOkIsValid :
    (inBit 39 0x019000C858 69 false).Inv ∧ (inBit 39 0x019000C858 69 false).OkIsValid ∧
      ∃ t, step (inBit 39 0x019000C858 69 false) = .next t :=
  ⟨inv_inBit _, (fun h => by cases h), _, rfl⟩

/-! ### Runs -/

/-- `n` quiet ticks with the line high. -/
def quietTicks (n : Nat) : List Input := List.replicate n (quiet true)

theorem noReset_quietTicks (s : State) (i : Input) (n : Nat) (hi : i.rst = false) (hs : s.inputs = i :: quietTicks n) :
    s.noResetFor (n + 1) := by
  apply noResetFor_of_listed
  · rw [hs, List.length_cons, quietTicks, List.length_replicate]
  · rw [hs]
    intro j hj
    rcases List.mem_cons.1 hj with h | h
    · rw [h]
      exact hi
    · rw [(List.mem_replicate.1 h).2]
      rfl

theorem test_witness_StartPulseWaveform :
    (inPhase .startLow 0 (quiet true :: quietTicks 18029)).Inv ∧
      (inPhase .startLow 0 (quiet true :: quietTicks 18029)).noResetFor 18030 :=
  ⟨inv_startLow _, noReset_quietTicks _ _ 18029 rfl rfl⟩
theorem test_witness_WaitEndsWithin201 :
    (inPhase .ackLow 0 (quiet true :: quietTicks 200)).Inv ∧
      phaseIsWait (inPhase .ackLow 0 (quiet true :: quietTicks 200)).ph = true ∧
      (inPhase .ackLow 0 (quiet true :: quietTicks 200)).noResetFor 201 :=
  ⟨inv_ackLow_entry _, rfl, noReset_quietTicks _ _ 200 rfl rfl⟩
theorem test_witness_EveryReadCompletes :
    (afterCapture 1999999 (writes 2 :: quietTicks 2034712)).Inv ∧
      (afterCapture 1999999 (writes 2 :: quietTicks 2034712)).acceptsRead ∧
      (afterCapture 1999999 (writes 2 :: quietTicks 2034712)).initialized = true ∧
      (afterCapture 1999999 (writes 2 :: quietTicks 2034712)).noResetFor 2034713 :=
  ⟨inv_afterCapture _, ⟨⟨rfl, rfl, rfl⟩, rfl⟩, rfl, noReset_quietTicks _ _ 2034712 rfl rfl⟩
theorem test_witness_EveryReadCompletes_open :
    (ready4 (writes 2 :: quietTicks 2034712)).Inv ∧ (ready4 (writes 2 :: quietTicks 2034712)).acceptsRead ∧
      (ready4 (writes 2 :: quietTicks 2034712)).paceCnt = 0 ∧
      (ready4 (writes 2 :: quietTicks 2034712)).noResetFor 2034713 :=
  ⟨inv_ready4 _, ⟨⟨rfl, rfl, rfl⟩, rfl⟩, rfl, noReset_quietTicks _ _ 2034712 rfl rfl⟩
theorem test_witness_NoReadIsShorter :
    (ready4 (writes 2 :: quietTicks 18113)).Inv ∧ (ready4 (writes 2 :: quietTicks 18113)).acceptsRead ∧
      (ready4 (writes 2 :: quietTicks 18113)).initialized = true ∧
      (ready4 (writes 2 :: quietTicks 18113)).noResetFor 18114 :=
  ⟨inv_ready4 _, ⟨⟨rfl, rfl, rfl⟩, rfl⟩, rfl, noReset_quietTicks _ _ 18113 rfl rfl⟩
/-- Two ticks before a Timeout. -/
theorem test_witness_FailedReadKeepsTheReading :
    (inPhase .ackLow 199 [quiet true, quiet true]).noResetFor (1 + 1) ∧
      (∀ j u, 1 ≤ j → j ≤ 1 → ticks j (inPhase .ackLow 199 [quiet true, quiet true]) = .next u → u.ph ≠ .idle) ∧
      ∃ t, ticks (1 + 1) (inPhase .ackLow 199 [quiet true, quiet true]) = .next t ∧ t.ph = .idle ∧ t.result ≠ .ok := by
  refine ⟨noReset_quietTicks _ (quiet true) 1 rfl rfl, ?_, _, rfl, rfl, by decide⟩
  intro j u h1 h2 h
  obtain rfl : j = 1 := by omega
  cases h
  decide
/-- A capture tick with one more tick listed behind it. -/
def captureThen (i : Input) : State := { inBit 39 0x019000C858 69 false with inputs := [quiet false, i] }

theorem inv_captureThen (i : Input) : (captureThen i).Inv := by
  constructor <;> simp [captureThen, inBit, inPhase, ready4, fromReset, State.reset, phaseIsWait, State.lineOe]

/-- A capture tick and the tick after it. -/
theorem test_witness_CounterIsIntervalMinusElapsed :
    (captureThen (quiet true)).Inv ∧ (captureThen (quiet true)).captures ∧
      ∃ t, step (captureThen (quiet true)) = .next t ∧
        (∀ j v, j < 1 → ticks j t = .next v → v.input.rst = false ∧ ¬ v.acceptsInit ∧ ¬ v.captures) ∧
        ∃ u, ticks 1 t = .next u := by
  refine ⟨inv_captureThen _, ⟨rfl, rfl, rfl, rfl⟩, _, rfl, ?_, _, rfl⟩
  intro j v h1 h
  obtain rfl : j = 0 := by omega
  cases h
  refine ⟨rfl, ?_, ?_⟩
  · rintro ⟨⟨-, h, -⟩, -⟩
    cases h
  · rintro ⟨-, h, -⟩
    cases h
/-- A READ presented in the first tick after a capture. -/
theorem test_witness_NoStartPulseWithinTheInterval :
    (captureThen (writes 2)).Inv ∧ (captureThen (writes 2)).captures ∧
      ∃ t, step (captureThen (writes 2)) = .next t ∧
        (∀ j v, j < 1 → ticks j t = .next v → v.input.rst = false ∧ ¬ v.acceptsInit) ∧
        ∃ u, ticks 1 t = .next u ∧ u.ph = .paceWait := by
  refine ⟨inv_captureThen _, ⟨rfl, rfl, rfl, rfl⟩, _, rfl, ?_, _, rfl, rfl⟩
  intro j v h1 h
  obtain rfl : j = 0 := by omega
  cases h
  refine ⟨rfl, ?_⟩
  rintro ⟨-, h⟩
  exact absurd h (by decide)
theorem test_witness_NoPadActivityBeforeInit :
    (fromReset [writes 2]).UninitClean ∧ (fromReset [writes 2]).initialized = false ∧
      (∀ j v, j < 1 → ticks j (fromReset [writes 2]) = .next v → ¬ v.acceptsInit) ∧
      ∃ t, ticks 1 (fromReset [writes 2]) = .next t := by
  refine ⟨by constructor <;> simp [fromReset, State.reset], rfl, ?_, _, rfl⟩
  intro j v h1 h
  obtain rfl : j = 0 := by omega
  cases h
  rintro ⟨-, h⟩
  exact absurd h (by decide)
/-- One host presents an INIT while busy, the other nothing. -/
theorem test_witness_HostCannotDisturbARead :
    let s := inPhase .startLow 97 [quiet true]
    let u := { inPhase .startLow 97 [writes 0x901] with cmdFault := true }
    s.sameButFault u ∧ s.noResetFor 1 ∧ u.noResetFor 1 ∧
      (∀ j, j < 1 → (s.inputAt j).lineIn = (u.inputAt j).lineIn) ∧
      (∀ j v, j < 1 → ticks j s = .next v → v.ph ≠ .idle) ∧ ∃ s', ticks 1 s = .next s' := by
  refine ⟨rfl, noReset_quietTicks _ _ 0 rfl rfl, noReset_quietTicks _ _ 0 rfl rfl, ?_, ?_, _, rfl⟩
  · intro j h
    obtain rfl : j = 0 := by omega
    rfl
  · intro j v h1 h
    obtain rfl : j = 0 := by omega
    cases h
    decide

end Sys2Proof.Tests
end

section
/-! Rules of the tick that the obligations about the state (10_state.md) are derived from: which command is presented and
accepted, what part 2 of a tick leaves alone, and one inversion lemma for a tick without reset. -/

namespace Sys2Proof.Machine

/-! ## `cmd_fault` replaced -/

/-- The state with the given `cmd_fault`: part 3 may set it, and nothing reads it (10_state.md R23). -/
def State.withFault (s : State) (b : Bool) : State := { s with cmdFault := b }

@[simp] theorem withFault_initialized (s : State) (b : Bool) : (s.withFault b).initialized = s.initialized := rfl
@[simp] theorem withFault_pin (s : State) (b : Bool) : (s.withFault b).pin = s.pin := rfl
@[simp] theorem withFault_hasRead (s : State) (b : Bool) : (s.withFault b).hasRead = s.hasRead := rfl
@[simp] theorem withFault_paceCnt (s : State) (b : Bool) : (s.withFault b).paceCnt = s.paceCnt := rfl
@[simp] theorem withFault_ph (s : State) (b : Bool) : (s.withFault b).ph = s.ph := rfl
@[simp] theorem withFault_tmr (s : State) (b : Bool) : (s.withFault b).tmr = s.tmr := rfl
@[simp] theorem withFault_bitIdx (s : State) (b : Bool) : (s.withFault b).bitIdx = s.bitIdx := rfl
@[simp] theorem withFault_frame (s : State) (b : Bool) : (s.withFault b).frame = s.frame := rfl
@[simp] theorem withFault_result (s : State) (b : Bool) : (s.withFault b).result = s.result := rfl
@[simp] theorem withFault_done (s : State) (b : Bool) : (s.withFault b).done = s.done := rfl
@[simp] theorem withFault_tempX10 (s : State) (b : Bool) : (s.withFault b).tempX10 = s.tempX10 := rfl
@[simp] theorem withFault_humX10 (s : State) (b : Bool) : (s.withFault b).humX10 = s.humX10 := rfl
@[simp] theorem withFault_cmdFault (s : State) (b : Bool) : (s.withFault b).cmdFault = b := rfl
@[simp] theorem withFault_input (s : State) (b : Bool) : (s.withFault b).input = s.input := rfl

/-! ## Views of the state -/

theorem busy_eq_true_iff (s : State) : s.busy = true ↔ s.ph ≠ .idle := decide_eq_true_iff

theorem lineOe_eq_true_iff (s : State) : s.lineOe = true ↔ s.ph = .startLow ∨ s.ph = .startHigh := decide_eq_true_iff

theorem lineOut_eq_false_iff (s : State) : s.lineOut = false ↔ s.ph = .startLow := by
  simp [State.lineOut]

theorem phaseIsWait_of_waitTarget (q : Phase) (level : Bool) (h : waitTarget q = some level) : phaseIsWait q = true := by
  cases q <;> simp_all [waitTarget, phaseIsWait]

/-- A wait phase is none of the four others. -/
theorem ne_of_phaseIsWait (q : Phase) (h : phaseIsWait q = true) :
    q ≠ .idle ∧ q ≠ .paceWait ∧ q ≠ .startLow ∧ q ≠ .startHigh := by
  refine ⟨?_, ?_, ?_, ?_⟩ <;> rintro rfl <;> cases h

/-! ## The end of a frame -/

/-- The capture tick is a completion over the recorded capture; the Reading is written only where the result is OK. -/
theorem onFrame_forms (p : Config.Params) (f : Frame) (t : State) :
    (∃ c, c ≠ .ok ∧ onFrame p f t = complete c (recordCapture p (storeFrame f t))) ∨
      (checksumOk f = true ∧ rangeOk p f = true ∧
        onFrame p f t = complete .ok (writeReading f (recordCapture p (storeFrame f t)))) := by
  rcases onFrame_cases p f t with ⟨-, h⟩ | ⟨-, -, h⟩ | ⟨hsum, hrange, h⟩
  · exact .inl ⟨.checksumError, by decide, h⟩
  · exact .inl ⟨.invalidData, by decide, h⟩
  · exact .inr ⟨hsum, hrange, h⟩

@[simp] theorem onFrame_ph (p : Config.Params) (f : Frame) (t : State) : (onFrame p f t).ph = .idle := by
  rcases onFrame_forms p f t with ⟨c, -, h⟩ | ⟨-, -, h⟩ <;> simp [h]

@[simp] theorem onFrame_done (p : Config.Params) (f : Frame) (t : State) : (onFrame p f t).done = true := by
  rcases onFrame_forms p f t with ⟨c, -, h⟩ | ⟨-, -, h⟩ <;> simp [h]

/-- What a capture tick leaves alone: the mode, the line identifier and the model's own fields. -/
theorem onFrame_frame (p : Config.Params) (f : Frame) (t : State) :
    (onFrame p f t).initialized = t.initialized ∧ (onFrame p f t).pin = t.pin ∧
      (onFrame p f t).cmdFault = t.cmdFault := by
  rcases onFrame_forms p f t with ⟨c, -, h⟩ | ⟨-, -, h⟩ <;> simp [h]

/-! ## Part 2 of a tick -/

theorem phaseAction_idle (p : Config.Params) (s t : State) (h : s.ph = .idle) : phaseAction p s t = t := by
  simp [phaseAction, h, onIdle]

/-- The phase that follows a hold or wait phase in the order of a READ (10_state.md R15), for the phases that `enter`
another one. -/
def phaseSuccessor : Phase → Phase
  | .startLow => .startHigh
  | .startHigh => .ackLow
  | .ackLow => .ackHigh
  | .ackHigh => .dataLow
  | .dataLow => .bitHigh
  | .bitHigh => .bitLow
  | .idle | .paceWait | .bitLow => .idle

/-- The timer is not at the last tick of its phase (42_handshake.md R110, R111, 41_waiter.md R101). -/
def State.timerRuns (s : State) : Prop :=
  (s.ph = .startLow → s.tmr ≠ 17999) ∧ (s.ph = .startHigh → s.tmr ≠ 29) ∧ (phaseIsWait s.ph = true → s.tmr ≠ 200)

/-- What part 2 can make of the state `t` under construction: the rows of `phaseAction_cases` by the update they make, each
with what its guard gives. -/
inductive PhaseUpdate (s t : State) : State → Prop
  /-- IDLE does nothing (40_commands.md R88). -/
  | idle (hph : s.ph = .idle) : PhaseUpdate s t t
  /-- The gate holds the READ (45_pacing.md R162). -/
  | held (hph : s.ph = .paceWait) (hpace : s.paceCnt ≠ 0) : PhaseUpdate s t t
  /-- The gate lets the READ go (45_pacing.md R162). -/
  | opened (hph : s.ph = .paceWait) (hpace : s.paceCnt = 0) : PhaseUpdate s t (openGate t)
  /-- A hold phase is over or the awaited level is seen (42_handshake.md R110, R111, 41_waiter.md R101). -/
  | entered (hidle : s.ph ≠ .idle) (hgate : s.ph ≠ .paceWait) (hbit : s.ph ≠ .bitLow) :
      PhaseUpdate s t (enter (phaseSuccessor s.ph) t)
  /-- A hold or wait phase goes on. -/
  | counted (hidle : s.ph ≠ .idle) (hgate : s.ph ≠ .paceWait) (hruns : s.timerRuns) : PhaseUpdate s t (countTimer t)
  /-- One of the bits 0 to 38 is stored (43_bit_decoder.md R121). -/
  | stored (hph : s.ph = .bitLow) (hidx : s.bitIdx.toNat ≠ 39) : PhaseUpdate s t (storeBit (pulseBit 50 s.tmr) t)
  /-- The fortieth bit completes the frame (43_bit_decoder.md R124). -/
  | captured (hph : s.ph = .bitLow) (hline : s.input.lineIn = false) (hidx : s.bitIdx = 39) :
      PhaseUpdate s t (onFrame Config.params s.capturedFrame t)
  /-- A wait phase times out (60_exceptions.md R177). -/
  | timedOut (hwait : phaseIsWait s.ph = true) : PhaseUpdate s t (complete .timeout t)

/-- A row that moves from a phase to the one after it. -/
theorem PhaseUpdate.of_row {s t t' : State} {q q' : Phase} (hph : s.ph = q)
    (hrow : q ≠ .idle ∧ q ≠ .paceWait ∧ q ≠ .bitLow ∧ phaseSuccessor q = q') (h : t' = enter q' t) :
    PhaseUpdate s t t' := by
  obtain ⟨hidle, hgate, hbit, rfl⟩ := hrow
  subst hph h
  exact .entered hidle hgate hbit

/-- Part 2 makes one of these updates. -/
theorem phaseAction_update (s t : State) : PhaseUpdate s t (phaseAction Config.params s t) := by
  rcases phaseAction_cases s t with ⟨hph, h⟩ | ⟨hph, hpace, h⟩ | ⟨hph, hpace, h⟩ | ⟨hph, -, h⟩ | ⟨hph, hlast, h⟩ |
    ⟨hph, -, h⟩ | ⟨hph, hlast, h⟩ | ⟨hph, -, h⟩ | ⟨hph, -, h⟩ | ⟨hph, -, h⟩ | ⟨hph, -, h⟩ | ⟨hph, -, hidx, h⟩ |
    ⟨hph, hline, hidx, h⟩ | ⟨level, hw, -, -, h⟩ | ⟨level, hw, -, hlast, h⟩
  · rw [h]
    exact .idle hph
  · exact h ▸ .opened hph hpace
  · rw [h]
    exact .held hph hpace
  · exact .of_row hph (by decide) h
  · exact h ▸ .counted (by simp [hph]) (by simp [hph]) (by simp [State.timerRuns, hph, hlast, phaseIsWait])
  · exact .of_row hph (by decide) h
  · exact h ▸ .counted (by simp [hph]) (by simp [hph]) (by simp [State.timerRuns, hph, hlast, phaseIsWait])
  · exact .of_row hph (by decide) h
  · exact .of_row hph (by decide) h
  · exact .of_row hph (by decide) h
  · exact .of_row hph (by decide) h
  · exact h ▸ .stored hph hidx
  · exact h ▸ .captured hph hline (BitVec.eq_of_toNat_eq hidx)
  · exact h ▸ .timedOut (phaseIsWait_of_waitTarget _ _ hw)
  · obtain ⟨hidle, hgate, hlow, hhigh⟩ := ne_of_phaseIsWait _ (phaseIsWait_of_waitTarget _ _ hw)
    exact h ▸ .counted hidle hgate ⟨fun hp => absurd hp hlow, fun hp => absurd hp hhigh, fun _ => hlast⟩

/-- What part 2 leaves alone in every phase: the mode, the line identifier and `cmd_fault`. -/
theorem PhaseUpdate.frame {s t t' : State} (h : PhaseUpdate s t t') :
    t'.initialized = t.initialized ∧ t'.pin = t.pin ∧ t'.cmdFault = t.cmdFault := by
  cases h
  case captured => exact onFrame_frame _ _ _
  all_goals exact ⟨rfl, rfl, rfl⟩

@[simp] theorem phaseAction_initialized (s t : State) :
    (phaseAction Config.params s t).initialized = t.initialized := (phaseAction_update s t).frame.1

@[simp] theorem phaseAction_pin (s t : State) : (phaseAction Config.params s t).pin = t.pin :=
  (phaseAction_update s t).frame.2.1

@[simp] theorem phaseAction_cmdFault (s t : State) : (phaseAction Config.params s t).cmdFault = t.cmdFault :=
  (phaseAction_update s t).frame.2.2

/-! ## Part 3 of a tick -/

/-- Part 3 by the command presented: none, or the one that the low two bits of the word name (30_encoding.md R61). -/
theorem commandPart_cases_op (s t : State) :
    (cmdWrite s.input = false ∧ commandPart s t = t) ∨
    (cmdWrite s.input = true ∧ s.input.regWdata.extractLsb' 0 2 = 0 ∧ commandPart s t = t) ∨
    (cmdWrite s.input = true ∧ s.input.regWdata.extractLsb' 0 2 = 1 ∧
      commandPart s t = present (acceptInit (s.input.regWdata.extractLsb' 8 8)) s t) ∨
    (cmdWrite s.input = true ∧ s.input.regWdata.extractLsb' 0 2 = 2 ∧ commandPart s t = present (onRead s) s t) ∨
    (cmdWrite s.input = true ∧ s.input.regWdata.extractLsb' 0 2 = 3 ∧ commandPart s t = setCmdFault t) := by
  unfold commandPart
  by_cases hw : cmdWrite s.input = true
  · rcases decodeCmd_cases s.input.regWdata with ⟨hop, hd⟩ | ⟨hop, hd⟩ | ⟨hop, hd⟩ | ⟨hop, hd⟩ <;>
      simp [hw, hop, hd]
  · simp [hw]

/-- Part 3 by what is accepted: no INIT or READ, when it sets `cmd_fault` at most, an INIT, or a READ in either mode. -/
theorem commandPart_cases_accept (s t : State) (hr : s.input.rst = false) :
    (¬ s.acceptsInit ∧ ¬ s.acceptsRead ∧ ∃ b, commandPart s t = t.withFault b) ∨
    (s.acceptsInit ∧ commandPart s t = acceptInit (s.input.regWdata.extractLsb' 8 8) t) ∨
    (s.acceptsRead ∧ s.initialized = true ∧ commandPart s t = acceptRead t) ∨
    (s.acceptsRead ∧ s.initialized = false ∧ commandPart s t = complete .notInitialized t) := by
  unfold State.acceptsInit State.acceptsRead State.accepts
  rcases commandPart_cases_op s t with ⟨hw, h⟩ | ⟨-, hop, h⟩ | ⟨hw, hop, h⟩ | ⟨hw, hop, h⟩ | ⟨-, hop, h⟩
  · exact .inl ⟨by simp [hw], by simp [hw], t.cmdFault, h⟩
  · exact .inl ⟨by simp [hop], by simp [hop], t.cmdFault, h⟩
  · rcases present_cases (acceptInit (s.input.regWdata.extractLsb' 8 8)) s t with ⟨hph, ha⟩ | ⟨hph, ha⟩
    · exact .inr (.inl ⟨⟨⟨hr, hw, hph⟩, hop⟩, h.trans ha⟩)
    · exact .inl ⟨by simp [hph], by simp [hph], true, h.trans ha⟩
  · rcases present_cases (onRead s) s t with ⟨hph, ha⟩ | ⟨hph, ha⟩
    · rcases onRead_cases s t with ⟨hi, hread⟩ | ⟨hi, hread⟩
      · exact .inr (.inr (.inl ⟨⟨⟨hr, hw, hph⟩, hop⟩, hi, h.trans (ha.trans hread)⟩))
      · exact .inr (.inr (.inr ⟨⟨⟨hr, hw, hph⟩, hop⟩, hi, h.trans (ha.trans hread)⟩))
    · exact .inl ⟨by simp [hph], by simp [hph], true, h.trans ha⟩
  · exact .inl ⟨by simp [hop], by simp [hop], true, h⟩

theorem not_acceptsRead_of_acceptsInit (s : State) (h : s.acceptsInit) : ¬ s.acceptsRead := by
  rintro ⟨-, hop⟩
  rw [h.2] at hop
  exact absurd hop (by decide)

theorem ph_of_acceptsInit (s : State) (h : s.acceptsInit) : s.ph = .idle := h.1.2.2

theorem ph_of_acceptsRead (s : State) (h : s.acceptsRead) : s.ph = .idle := h.1.2.2

/-! ## A tick without reset -/

/-- What a tick without reset does, by what is accepted in it: without an INIT or READ accepted it is parts 1 and 2 but for
`cmd_fault`, and an accepted command acts on part 1 alone, since part 2 of IDLE does nothing (40_commands.md R80, R88). -/
theorem step_cases_accept (s t : State) (h : step s = .next t) (hr : s.input.rst = false) :
    (¬ s.acceptsInit ∧ ¬ s.acceptsRead ∧ ∃ b, t = (phaseAction Config.params s (elapse s)).withFault b) ∨
    (s.acceptsInit ∧ t = acceptInit (s.input.regWdata.extractLsb' 8 8) (elapse s)) ∨
    (s.acceptsRead ∧ s.initialized = true ∧ t = acceptRead (elapse s)) ∨
    (s.acceptsRead ∧ s.initialized = false ∧ t = complete .notInitialized (elapse s)) := by
  rcases step_cases s t h with ⟨hrst, -⟩ | ⟨-, -, rfl⟩
  · simp [hr] at hrst
  rcases commandPart_cases_accept s (phaseAction Config.params s (elapse s)) hr with
    ⟨hinit, hread, b, hc⟩ | ⟨hinit, hc⟩ | ⟨hread, hi, hc⟩ | ⟨hread, hi, hc⟩
  · exact .inl ⟨hinit, hread, b, hc⟩
  · rw [hc, phaseAction_idle _ _ _ (ph_of_acceptsInit s hinit)]
    exact .inr (.inl ⟨hinit, rfl⟩)
  · rw [hc, phaseAction_idle _ _ _ (ph_of_acceptsRead s hread)]
    exact .inr (.inr (.inl ⟨hread, hi, rfl⟩))
  · rw [hc, phaseAction_idle _ _ _ (ph_of_acceptsRead s hread)]
    exact .inr (.inr (.inr ⟨hread, hi, rfl⟩))

end Sys2Proof.Machine
end

section
/-! The invariant of 10_state.md R33: one lemma per update of the state, then the phases, then the step. -/

namespace Sys2Proof.Machine

/-- The temperature of a frame is its sign and magnitude exactly, the magnitude being below 2^15 (44_validator.md R145,
R147). -/
theorem tempTenths_toInt (f : Frame) :
    (tempTenths f).toInt = if tempNeg f then -((tempMag f).toNat : Int) else ((tempMag f).toNat : Int) := by
  have hmag : (tempMag f).toNat < 2 ^ 15 := (tempMag f).isLt
  unfold tempTenths
  split <;> rw [BitVec.toInt_eq_toNat_cond, BitVec.toNat_ofNat] <;> omega

/-- A frame in range gives a Reading in range (44_validator.md R144, 10_state.md R33 (h)). -/
theorem reading_bounds_of_rangeOk (f : Frame) (h : rangeOk Config.params f = true) :
    (humRaw f).toNat ≤ 1000 ∧ -400 ≤ (tempTenths f).toInt ∧ (tempTenths f).toInt ≤ 800 := by
  rw [tempTenths_toInt]
  unfold rangeOk at h
  rw [Bool.and_eq_true, decide_eq_true_iff, params_humMaxX10, params_tempMinMagX10, params_tempMaxX10] at h
  obtain ⟨hhum, htemp⟩ := h
  refine ⟨hhum, ?_⟩
  split_ifs at htemp ⊢ <;> rw [decide_eq_true_iff] at htemp <;> omega

/-! ## One lemma per update -/

theorem inv_reset : State.reset.Inv := by
  constructor <;> simp [State.reset, State.lineOe, phaseIsWait]

theorem inv_resetTick (s : State) : (resetTick s).Inv := { inv_reset with }

namespace State.Inv

variable {t : State}

theorem withFault (h : t.Inv) (b : Bool) : (t.withFault b).Inv := { h with }

theorem elapse (h : t.Inv) : (elapse t).Inv :=
  { h with
    neverReadOpen := fun hn => by simp [h.neverReadOpen hn]
    paceBound := by
      have := h.paceBound
      rw [elapse_paceCnt, countdown_eq]
      omega
    gateOpen := fun hi hp => by simp [h.gateOpen hi hp] }

/-- A new phase begins with the timer at 0. -/
theorem enter (h : t.Inv) (q : Phase) (hbusy : t.ph ≠ .idle) (hopen : t.paceCnt = 0) : (enter q t).Inv :=
  { h with
    busyMode := fun _ => h.busyMode hbusy
    timerLow := fun _ => Nat.zero_le _
    timerHigh := fun _ => Nat.zero_le _
    timerWait := fun _ => Nat.zero_le _
    timerBound := Nat.zero_le _
    driveMode := fun _ => (h.busyMode hbusy).1
    gateOpen := fun _ _ => hopen }

/-- The timer counts on where the phase is not at its last tick. -/
theorem countTimer (h : t.Inv) (hi : t.ph ≠ .idle) (hp : t.ph ≠ .paceWait) (hruns : t.timerRuns) : (countTimer t).Inv :=
  have ⟨hlow, hhigh, hwait⟩ := hruns
  have hbound : t.tmr + 1 ≤ 17999 := by
    have := h.timerLow
    have := h.timerHigh
    have := h.timerWait
    cases hq : t.ph <;> simp_all [phaseIsWait] <;> omega
  { h with
    timerLow := fun _ => hbound
    timerHigh := fun hp => Nat.lt_of_le_of_ne (h.timerHigh hp) (hhigh hp)
    timerWait := fun hp => Nat.lt_of_le_of_ne (h.timerWait hp) (hwait hp)
    timerBound := hbound }

theorem openGate (h : t.Inv) (hbusy : t.ph ≠ .idle) (hopen : t.paceCnt = 0) : (openGate t).Inv :=
  { h.enter .startLow hbusy hopen with bitBound := Nat.zero_le _ }

theorem storeBit (h : t.Inv) (b : Bool) (hbit : t.ph = .bitLow) (hidx : t.bitIdx.toNat ≠ 39) : (storeBit b t).Inv :=
  have hbusy : t.ph ≠ .idle := by simp [hbit]
  { h.enter .bitHigh hbusy (h.gateOpen hbusy (by simp [hbit])) with
    bitBound := by
      have := h.bitBound
      change (t.bitIdx + 1#6).toNat ≤ 39
      bv_omega }

/-- Completion comes to IDLE, where nothing is asked of `done` and the timer but its largest value. -/
theorem complete (h : t.Inv) (c : ResultCode) : (complete c t).Inv :=
  { h with
    busyMode := fun hp => absurd rfl hp
    timerLow := fun hp => nomatch hp
    timerHigh := fun hp => nomatch hp
    timerWait := fun hp => nomatch hp
    driveMode := fun hp => nomatch hp
    gateOpen := fun hp => absurd rfl hp }

/-- The capture loads the gate, which the completion in the same tick makes legal (10_state.md R33 (j)). -/
theorem capture (h : t.Inv) (c : ResultCode) (f : Frame) :
    (Machine.complete c (recordCapture Config.params (storeFrame f t))).Inv :=
  { (h.complete c) with
    timerLow := fun hp => nomatch hp
    timerHigh := fun hp => nomatch hp
    timerWait := fun hp => nomatch hp
    neverReadOpen := fun hn => nomatch hn
    paceBound := Nat.le_refl _
    timerBound := Nat.zero_le _
    gateOpen := fun hp => absurd rfl hp }

theorem onFrame (h : t.Inv) (f : Frame) : (onFrame Config.params f t).Inv := by
  rcases onFrame_forms Config.params f t with ⟨c, -, he⟩ | ⟨-, hrange, he⟩
  · rw [he]
    exact h.capture c f
  · obtain ⟨hhum, htemp⟩ := reading_bounds_of_rangeOk f hrange
    rw [he]
    exact { h.capture .ok f with humBound := hhum, tempBound := htemp }

theorem acceptInit (h : t.Inv) (pin : Byte) (hidle : t.ph = .idle) : (acceptInit pin t).Inv :=
  { h with
    neverReadOpen := fun _ => rfl
    paceBound := Nat.zero_le _
    busyMode := fun hp => absurd hidle hp
    driveMode := fun _ => rfl
    gateOpen := fun _ _ => rfl }

theorem acceptRead (h : t.Inv) (hmode : t.initialized = true) : (acceptRead t).Inv :=
  { h with
    busyMode := fun _ => ⟨hmode, rfl⟩
    timerLow := fun hp => nomatch hp
    timerHigh := fun hp => nomatch hp
    timerWait := fun hp => nomatch hp
    driveMode := fun _ => hmode
    gateOpen := fun _ hp => absurd rfl hp }

end State.Inv

/-! ## The phases and the step -/

/-- Parts 1 and 2 of a tick keep the invariant, whatever update part 2 makes. -/
theorem PhaseUpdate.inv {s t : State} (hupd : PhaseUpdate s (elapse s) t) (h : s.Inv) : t.Inv := by
  have ht : (elapse s).Inv := h.elapse
  cases hupd with
  | idle | held => exact ht
  | opened hph hpace => exact ht.openGate (by simp [hph]) (by simp [hpace])
  | entered hidle hgate => exact ht.enter _ hidle (ht.gateOpen hidle hgate)
  | counted hidle hgate hruns => exact ht.countTimer hidle hgate hruns
  | stored hph hidx => exact ht.storeBit _ hph hidx
  | captured => exact ht.onFrame _
  | timedOut => exact ht.complete _

/-- Settles O47: reset by its values, parts 1 and 2 by the update made, an accepted command by what it writes. -/
theorem everyStepKeepsInv : Obligations.EveryStepKeepsInv := by
  unfold Obligations.EveryStepKeepsInv
  intro s t h hstep
  rcases step_cases s t hstep with ⟨-, rfl⟩ | ⟨hr, -⟩
  · exact inv_resetTick s
  rcases step_cases_accept s t hstep hr with ⟨-, -, b, rfl⟩ | ⟨hinit, rfl⟩ | ⟨hread, hmode, rfl⟩ | ⟨hread, -, rfl⟩
  · exact ((phaseAction_update s (elapse s)).inv h).withFault b
  · exact h.elapse.acceptInit _ (ph_of_acceptsInit s hinit)
  · exact h.elapse.acceptRead hmode
  · exact h.elapse.complete _

end Sys2Proof.Machine
end

section
/-! The start of a run and the ends of the machine's range: reset, and the states in which a tick is taken (10_state.md R33,
R35, 93_implementation_defined.md U10). -/

namespace Sys2Proof.Machine

/-- Nothing is asked of the frame in IDLE and PACE_WAIT. -/
theorem freshFrame_of_ph (s : State) (h : s.ph = .idle ∨ s.ph = .paceWait) : s.FreshFrame := by
  constructor <;> rcases h with h | h <;> simp [h]

theorem uninitClean_reset : State.reset.UninitClean := by
  constructor <;> intro _
  · rfl
  · exact ⟨rfl, rfl⟩
  · exact ⟨rfl, rfl, rfl, rfl⟩
  · exact ⟨rfl, rfl⟩
  · exact .inl ⟨rfl, rfl⟩

theorem okIsValid_of_not_done (s : State) (h : s.done = false) : s.OkIsValid := by
  intro hdone
  rw [h] at hdone
  cases hdone

/-- Settles O46: reset is in IDLE, Uninitialized, with no READ done. -/
theorem invariantAtReset : Obligations.InvariantAtReset :=
  ⟨inv_reset, freshFrame_of_ph _ (.inl rfl), uninitClean_reset, okIsValid_of_not_done _ rfl⟩

/-- Settles O11: the elements of R35 by definition, the outputs and STATUS computed from them. -/
theorem resetValues : Obligations.ResetValues := by
  unfold Obligations.ResetValues
  decide

theorem inRange_iff_rangeFault (s : State) : s.inRange ↔ s.rangeFault Config.params = none :=
  (rangeFault_eq_none_iff s).symm

theorem State.Inv.inRange {s : State} (h : s.Inv) : s.inRange := ⟨h.timerBound, h.bitBound, h.paceBound⟩

/-- With every counter in range a step answers a next state, with reset or without. -/
theorem step_of_inRange (s : State) (h : s.inRange) : ∃ t, step s = .next t := by
  by_cases hr : s.input.rst = true
  · exact ⟨_, step_of_rst s hr⟩
  · rw [Bool.not_eq_true] at hr
    rw [step_of_no_rst s hr]
    exact ⟨_, tickTo_of_range _ _ _ ((inRange_iff_rangeFault s).1 h)⟩

/-- Settles O48: the invariant bounds the three counters. -/
theorem runningStatesAreInRange : Obligations.RunningStatesAreInRange := by
  unfold Obligations.RunningStatesAreInRange
  exact fun s h => ⟨h.inRange, step_of_inRange s h.inRange⟩

theorem exec_of_rangeFault (i : Instr) (s : State) (e : Fault) (h : s.rangeFault Config.params = some e) :
    exec i s = .fault e := by
  rw [exec_eq_tickTo, tickTo, h]

/-- Settles O13: the three comparisons of `rangeFault` in their order. -/
theorem outOfRangeIsStuck : Obligations.OutOfRangeIsStuck := by
  unfold Obligations.OutOfRangeIsStuck
  intro i s
  refine ⟨fun htmr => exec_of_rangeFault i s _ ?_, fun htmr hidx => exec_of_rangeFault i s _ ?_,
    fun htmr hidx hpace => exec_of_rangeFault i s _ ?_⟩
  · simp [State.rangeFault, htmr]
  · rw [State.rangeFault, params_tmrMax, frameBits_eq, if_neg (by omega), if_pos (by omega)]
  · rw [State.rangeFault, params_tmrMax, frameBits_eq, params_paceMax, if_neg (by omega), if_neg (by omega),
      if_pos hpace]

end Sys2Proof.Machine
end

section
/-! What the host reads: the fields of STATUS, the other registers, the pad signals and the pacing state (10_state.md R14,
R24 to R31). -/

namespace Sys2Proof.Machine

theorem regRead_status (s : State) : s.regRead 1 = s.status := rfl

/-- The fields of STATUS wider than a bit, and the reserved ones, each compared bit by bit. -/
theorem status_fields (s : State) :
    s.status.extractLsb' 4 3 = s.result.code ∧ s.status.extractLsb' 7 1 = 0 ∧
    s.status.extractLsb' 8 2 = s.paceState.code ∧ s.status.extractLsb' 10 6 = 0 ∧
    s.status.extractLsb' 16 4 = s.ph.code ∧ s.status.extractLsb' 20 4 = 0 ∧
    s.status.extractLsb' 24 6 = s.bitIdx ∧ s.status.extractLsb' 30 2 = 0 := by
  refine ⟨?_, ?_, ?_, ?_, ?_, ?_, ?_, ?_⟩ <;> apply BitVec.eq_of_getLsbD_eq <;> intro i hi <;>
    rw [BitVec.getLsbD_extractLsb', status_getLsbD _ _ (by omega)] <;> interval_cases i <;> rfl

/-- Settles O32, from the single bits of `status_getLsbD` and the fields of `status_fields`. -/
theorem statusFields : Obligations.StatusFields := by
  unfold Obligations.StatusFields
  intro s
  obtain ⟨hresult, h7, hpace, h10, hph, h20, hidx, h30⟩ := status_fields s
  have hcode : s.paceState.code = (match s.paceState with | .neverRead => 0 | .ready => 1 | .mustWait => 2) := by
    cases s.paceState <;> rfl
  have hbit := status_getLsbD s
  exact ⟨hbit 0 (by decide), hbit 1 (by decide), hbit 2 (by decide), hbit 3 (by decide), hresult, h7,
    hpace.trans hcode, h10, hph, h20, hidx, h30⟩

/-- Settles O33: an extension keeps the value, signed or unsigned. -/
theorem registerReads : Obligations.RegisterReads := by
  unfold Obligations.RegisterReads
  intro s
  refine ⟨?_, ?_, ?_, ?_, rfl, rfl, rfl⟩
  · exact BitVec.toInt_signExtend_of_le (by decide)
  · exact BitVec.toNat_setWidth_of_le (by decide)
  · exact fun h => Nat.mod_eq_of_lt h
  · exact BitVec.toNat_setWidth_of_le (by decide)

/-- Settles O34, from the equivalences of the three driven signals. -/
theorem padSignals : Obligations.PadSignals := by
  unfold Obligations.PadSignals
  exact fun s => ⟨busy_eq_true_iff s, lineOe_eq_true_iff s, lineOut_eq_false_iff s, rfl, rfl, rfl⟩

/-! ## The pacing state (10_state.md R14) -/

/-- The three rows of the table of R14. -/
theorem paceState_cases (s : State) :
    (s.hasRead = false ∧ s.paceState = .neverRead) ∨
    (s.hasRead = true ∧ s.paceCnt = 0 ∧ s.paceState = .ready) ∨
    (s.hasRead = true ∧ s.paceCnt ≠ 0 ∧ s.paceState = .mustWait) := by
  unfold State.paceState
  split_ifs <;> simp_all

/-- `remaining_ms` is the least number of milliseconds that covers `pace_cnt` (45_pacing.md R168). -/
theorem remainingMs_bounds (s : State) :
    (s.remainingMs - 1) * 1000 ≤ s.paceCnt ∧ s.paceCnt ≤ s.remainingMs * 1000 ∧
      (s.paceCnt ≠ 0 → (s.remainingMs - 1) * 1000 < s.paceCnt) := by
  unfold State.remainingMs ceilMs
  omega

/-- Settles O35: the three rows of R14 exclude each other, and STATUS[9:8] holds the code of the row. -/
theorem pacingStateView : Obligations.PacingStateView := by
  unfold Obligations.PacingStateView
  intro s h
  obtain ⟨-, -, hcode, -⟩ := status_fields s
  obtain ⟨hlow, hup, hstrict⟩ := remainingMs_bounds s
  have hpace := h.paceBound
  rw [regRead_status, hcode]
  rcases paceState_cases s with ⟨hread, hs⟩ | ⟨hread, h0, hs⟩ | ⟨hread, h0, hs⟩ <;>
    simp [PaceState.code, *] <;> omega

end Sys2Proof.Machine
end

section
/-! A tick compared with the tick of a state that differs in one input or in `cmd_fault` (10_state.md R23, R25). -/

namespace Sys2Proof.Machine

/-! ## Another input of the tick -/

@[simp] theorem withInput_input (s : State) (i : Input) : (s.withInput i).input = i := rfl

/-- What is listed for a tick is dropped by part 1. -/
@[simp] theorem elapse_withInput (s : State) (i : Input) : elapse (s.withInput i) = elapse s := rfl

/-- Outside the wait phases part 2 reads no input. -/
theorem phaseAction_withInput_of_not_wait (p : Config.Params) (s t : State) (i : Input) (h : phaseIsWait s.ph = false) :
    phaseAction p (s.withInput i) t = phaseAction p s t := by
  have hph : (s.withInput i).ph = s.ph := rfl
  unfold phaseAction
  rw [hph]
  cases hq : s.ph <;> simp [hq, phaseIsWait] at h <;> rfl

/-- Part 3 reads the write port alone. -/
theorem commandPart_withInput (s t : State) (i : Input) (hwrite : cmdWrite i = cmdWrite s.input)
    (hdata : i.regWdata = s.input.regWdata) : commandPart (s.withInput i) t = commandPart s t := by
  unfold commandPart
  rw [withInput_input, hwrite, hdata]
  rfl

/-- A step is decided by the reset, the range, and what parts 2 and 3 do. -/
theorem step_congr (s u : State) (hrst : s.input.rst = u.input.rst) (hreset : resetTick s = resetTick u)
    (hrange : s.rangeFault Config.params = u.rangeFault Config.params)
    (heffect : commandPart s (phaseAction Config.params s (elapse s)) =
      commandPart u (phaseAction Config.params u (elapse u))) : step s = step u := by
  by_cases hr : s.input.rst = true
  · rw [step_of_rst s hr, step_of_rst u (hrst ▸ hr), hreset]
  · rw [Bool.not_eq_true] at hr
    rw [step_of_no_rst s hr, step_of_no_rst u (hrst ▸ hr), tickTo, tickTo, hrange, fetch_effect, fetch_effect, heffect]

/-- Settles O38: outside the wait phases part 2 reads no input and part 3 never reads the line. -/
theorem lineReadOnlyInWaitPhases : Obligations.LineReadOnlyInWaitPhases := by
  unfold Obligations.LineReadOnlyInWaitPhases
  refine ⟨fun s b h => step_congr _ _ rfl rfl rfl ?_, fun s h => ?_⟩
  · rw [elapse_withInput, phaseAction_withInput_of_not_wait _ _ _ _ h]
    exact (commandPart_withInput s _ _ rfl rfl).symm
  · obtain ⟨-, -, hlow, hhigh⟩ := ne_of_phaseIsWait _ h
    simp [State.lineOe, hlow, hhigh]

/-! ## Another `cmd_fault` -/

section
variable (b : Bool)

theorem holdStep_withFault (len : Nat) (q : Phase) (s t : State) :
    holdStep len q s (t.withFault b) = (holdStep len q s t).withFault b := by
  unfold holdStep
  split <;> rfl

theorem waitStep_withFault (n : Nat) (level : Bool) (f g : State → State) (s t : State)
    (hf : f (t.withFault b) = (f t).withFault b) (hg : g (t.withFault b) = (g t).withFault b) :
    waitStep n level f g s (t.withFault b) = (waitStep n level f g s t).withFault b := by
  unfold waitStep
  split_ifs
  · exact hf
  · exact hg
  · rfl

theorem onPaceWait_withFault (s t : State) : onPaceWait s (t.withFault b) = (onPaceWait s t).withFault b := by
  unfold onPaceWait
  split_ifs <;> rfl

theorem onFrame_withFault (p : Config.Params) (f : Frame) (t : State) :
    onFrame p f (t.withFault b) = (onFrame p f t).withFault b := by
  unfold onFrame
  split_ifs <;> rfl

theorem pulseEnd_withFault (p : Config.Params) (s t : State) :
    pulseEnd p s (t.withFault b) = (pulseEnd p s t).withFault b := by
  unfold pulseEnd
  split
  · exact onFrame_withFault b p _ t
  · rfl

/-- Part 2 neither reads nor writes `cmd_fault`. -/
theorem phaseAction_withFault (p : Config.Params) (s t : State) :
    phaseAction p s (t.withFault b) = (phaseAction p s t).withFault b := by
  unfold phaseAction
  split
  · rfl
  · exact onPaceWait_withFault b s t
  · exact holdStep_withFault b _ _ s t
  · exact holdStep_withFault b _ _ s t
  · exact waitStep_withFault b _ _ _ _ s t rfl rfl
  · exact waitStep_withFault b _ _ _ _ s t rfl rfl
  · exact waitStep_withFault b _ _ _ _ s t rfl rfl
  · exact waitStep_withFault b _ _ _ _ s t rfl rfl
  · exact waitStep_withFault b _ _ _ _ s t (pulseEnd_withFault b p s t) rfl

theorem onRead_withFault (s t : State) : onRead s (t.withFault b) = (onRead s t).withFault b := by
  unfold onRead
  split <;> rfl

theorem present_withFault (f : State → State) (s t : State) (hf : f (t.withFault b) = (f t).withFault b) :
    ∃ c, present f s (t.withFault b) = (present f s t).withFault c := by
  unfold present
  split
  · exact ⟨b, hf⟩
  · exact ⟨true, rfl⟩

/-- Part 3 does not read `cmd_fault`. -/
theorem commandPart_withFault (s t : State) : ∃ c, commandPart s (t.withFault b) = (commandPart s t).withFault c := by
  unfold commandPart
  split
  · split
    · exact present_withFault b _ s t rfl
    · exact present_withFault b _ s t (onRead_withFault b s t)
    · exact ⟨true, rfl⟩
    · exact ⟨b, rfl⟩
  · exact ⟨b, rfl⟩

/-- A state that differs in `cmd_fault` alone takes the same step but for `cmd_fault`. -/
theorem step_withFault (s t : State) (h : step s = .next t) : ∃ c, step (s.withFault b) = .next (t.withFault c) := by
  rcases step_cases s t h with ⟨hr, rfl⟩ | ⟨hr, hrange, rfl⟩
  · exact ⟨_, step_of_rst (s.withFault b) hr⟩
  · obtain ⟨c, hc⟩ := commandPart_withFault b s (phaseAction Config.params s (elapse s))
    have hpart : phaseAction Config.params (s.withFault b) (elapse (s.withFault b)) =
        (phaseAction Config.params s (elapse s)).withFault b := phaseAction_withFault b Config.params s (elapse s)
    have hrange' : (s.withFault b).rangeFault Config.params = none := hrange
    refine ⟨c, ?_⟩
    rw [step_of_no_rst (s.withFault b) hr, tickTo_of_range _ _ _ hrange', fetch_effect, hpart]
    exact congrArg _ hc

end

theorem present_cmdFault (f : State → State) (s t : State) (hf : (f t).cmdFault = t.cmdFault) :
    (present f s t).cmdFault = true ↔ t.cmdFault = true ∨ s.busy = true := by
  rw [busy_eq_true_iff]
  rcases present_cases f s t with ⟨hph, h⟩ | ⟨hph, h⟩ <;> simp [h, hph, hf]

/-- What sets `cmd_fault`: RSVD in any phase, and INIT or READ while busy (40_commands.md R86, R87). -/
theorem commandPart_cmdFault (s t : State) :
    (commandPart s t).cmdFault = true ↔
      t.cmdFault = true ∨ (cmdWrite s.input = true ∧
        (s.input.regWdata.extractLsb' 0 2 = 3 ∨ (s.input.regWdata.extractLsb' 0 2 ≠ 0 ∧ s.busy = true))) := by
  rcases commandPart_cases_op s t with ⟨hw, h⟩ | ⟨hw, hop, h⟩ | ⟨hw, hop, h⟩ | ⟨hw, hop, h⟩ | ⟨hw, hop, h⟩ <;> rw [h]
  · simp [hw]
  · simp [hop]
  · simp [hw, hop, present_cmdFault (acceptInit _) s t rfl]
  · have hread : (onRead s t).cmdFault = t.cmdFault := by
      rcases onRead_cases s t with ⟨-, he⟩ | ⟨-, he⟩ <;> simp [he]
    simp [hw, hop, present_cmdFault (onRead s) s t hread]
  · simp [hw, hop]

/-- Settles O41: part 3 alone sets `cmd_fault`, and no part reads it. -/
theorem cmdFaultCauses : Obligations.CmdFaultCauses := by
  unfold Obligations.CmdFaultCauses
  intro s t h
  constructor
  · rcases step_cases s t h with ⟨hr, rfl⟩ | ⟨hr, -, rfl⟩
    · simp [hr, State.reset]
    · simp [hr, commandPart_cmdFault]
  · intro b
    obtain ⟨c, hc⟩ := step_withFault b s t h
    exact ⟨_, hc, rfl⟩

end Sys2Proof.Machine
end

section
/-! What a step may change: the mode, the Reading, the result and the phase (10_state.md R10, R11, R15, R19 to R22), and
the frame that a READ creates fresh (10_state.md R18). -/

namespace Sys2Proof.Machine

/-! ## The mode -/

/-- Settles O40, by what is accepted in the tick: part 2 touches neither `initialized` nor `pin`. -/
theorem modeLeftOnlyByReset : Obligations.ModeLeftOnlyByReset := by
  unfold Obligations.ModeLeftOnlyByReset
  intro s t h hr
  rcases step_cases_accept s t h hr with ⟨hinit, -, b, rfl⟩ | ⟨hinit, rfl⟩ | ⟨hread, -, rfl⟩ | ⟨hread, -, rfl⟩
  · simp [hinit]
  · simp [hinit]
  all_goals
    have hinit : ¬ s.acceptsInit := fun hi => not_acceptsRead_of_acceptsInit s hi hread
    simp [hinit]

/-! ## The Reading -/

/-- Part 2 writes the Reading only where the fortieth bit completes a frame that passes both checks. -/
theorem PhaseUpdate.reading {s t t' : State} (h : PhaseUpdate s t t') :
    (t'.tempX10 = t.tempX10 ∧ t'.humX10 = t.humX10) ∨
    (s.ph = .bitLow ∧ s.bitIdx = 39 ∧ s.input.lineIn = false ∧ t'.result = .ok ∧ t'.done = true ∧ t'.ph = .idle ∧
      checksumOk s.capturedFrame = true ∧ rangeOk Config.params s.capturedFrame = true ∧
      t'.humX10 = humRaw s.capturedFrame ∧ t'.tempX10 = tempTenths s.capturedFrame) := by
  cases h
  case captured hph hline hidx =>
    rcases onFrame_forms Config.params s.capturedFrame t with ⟨c, -, he⟩ | ⟨hsum, hrange, he⟩ <;> rw [he]
    · exact .inl ⟨rfl, rfl⟩
    · exact .inr ⟨hph, hidx, hline, rfl, rfl, rfl, hsum, hrange, rfl, rfl⟩
  all_goals exact .inl ⟨rfl, rfl⟩

/-- Settles O42: no command writes the Reading, and part 2 does in a capture that ends OK. -/
theorem readingChangesOnlyOnOk : Obligations.ReadingChangesOnlyOnOk := by
  unfold Obligations.ReadingChangesOnlyOnOk
  intro s t h hr
  rcases step_cases_accept s t h hr with ⟨-, -, b, rfl⟩ | ⟨-, rfl⟩ | ⟨-, -, rfl⟩ | ⟨-, -, rfl⟩
  · rcases (phaseAction_update s (elapse s)).reading with hsame | ⟨hph, hidx, hline, hrest⟩
    · exact .inl hsame
    · exact .inr ⟨⟨hr, hph, hidx, hline⟩, hrest⟩
  all_goals exact .inl ⟨rfl, rfl⟩

/-! ## The result and `done` -/

theorem phaseSuccessor_ne_idle (q : Phase) (hidle : q ≠ .idle) (hgate : q ≠ .paceWait) (hbit : q ≠ .bitLow) :
    phaseSuccessor q ≠ .idle := by
  cases q <;> simp_all [phaseSuccessor]

/-- Part 2 either leaves `result` and `done` and does not come to IDLE, or completes a READ (60_exceptions.md R181). -/
theorem PhaseUpdate.outcome {s t t' : State} (h : PhaseUpdate s t t') (hph : t.ph = s.ph) :
    (t'.result = t.result ∧ t'.done = t.done ∧ (t'.ph = .idle → s.ph = .idle)) ∨
      (s.ph ≠ .idle ∧ t'.ph = .idle ∧ t'.done = true) := by
  cases h with
  | idle | held | counted => exact .inl ⟨rfl, rfl, fun hi => hph ▸ hi⟩
  | opened | stored => exact .inl ⟨rfl, rfl, nofun⟩
  | entered hidle hgate hbit =>
    exact .inl ⟨rfl, rfl, fun hi => absurd hi (phaseSuccessor_ne_idle _ hidle hgate hbit)⟩
  | captured hp => exact .inr ⟨by simp [hp], onFrame_ph _ _ _, onFrame_done _ _ _⟩
  | timedOut hwait => exact .inr ⟨(ne_of_phaseIsWait _ hwait).1, rfl, rfl⟩

/-- Settles O43, by what is accepted in the tick: a completion of part 2, an INIT, or a READ in either mode. -/
theorem resultChangesOnlyOnCompletion : Obligations.ResultChangesOnlyOnCompletion := by
  unfold Obligations.ResultChangesOnlyOnCompletion
  intro s t h hr
  rcases step_cases_accept s t h hr with ⟨-, hread, b, rfl⟩ | ⟨hinit, rfl⟩ | ⟨hread, hmode, rfl⟩ | ⟨hread, hmode, rfl⟩
  · rcases (phaseAction_update s (elapse s)).outcome rfl with ⟨hresult, hdone, hstay⟩ | ⟨hbusy, hidle, hdone⟩
    · refine ⟨fun hchange => ?_, fun h0 h1 => ?_, fun hbusy hidle => absurd (hstay hidle) hbusy, fun ha => absurd ha hread⟩
      · simp [hresult, hdone] at hchange
      · simp [hdone, h1] at h0
    · exact ⟨fun _ => ⟨.inl ⟨hbusy, hidle⟩, hdone, hidle⟩, fun h0 => absurd (h0.symm.trans hdone) nofun,
        fun _ _ => hdone, fun ha => absurd ha hread⟩
  · have hread := not_acceptsRead_of_acceptsInit s hinit
    have hidle := ph_of_acceptsInit s hinit
    simp_all
  · simp [hread, hmode]
  · have hidle := ph_of_acceptsRead s hread
    simp [hread, hmode, hidle]

/-! ## The phase -/

/-- Without a READ accepted, part 2 goes where the table of R15 says. -/
theorem mayEnter_phaseAction (s t : State) (h : s.Inv) (hph : t.ph = s.ph) (hread : ¬ s.acceptsRead) :
    s.mayEnter (phaseAction Config.params s t).ph := by
  unfold State.mayEnter
  rcases phaseAction_cases s t with ⟨hp, he⟩ | ⟨hp, h0, he⟩ | ⟨hp, h0, he⟩ | ⟨hp, hl, he⟩ | ⟨hp, hl, he⟩ |
    ⟨hp, hl, he⟩ | ⟨hp, hl, he⟩ | ⟨hp, hline, he⟩ | ⟨hp, hline, he⟩ | ⟨hp, hline, he⟩ | ⟨hp, hline, he⟩ |
    ⟨hp, hline, hidx, he⟩ | ⟨hp, hline, hidx, he⟩ | ⟨level, hw, hline, hl, he⟩ | ⟨level, hw, hline, hl, he⟩ <;> rw [he]
  · simp [hph, hp, hread]
  · simp [hp, h0]
  · simp [hph, hp, h0]
  · simp [hp, hl]
  · simp [hph, hp, hl]
  · simp [hp, hl]
  · simp [hph, hp, hl]
  · simp [hp, hline]
  · simp [hp, hline]
  · simp [hp, hline]
  · simp [hp, hline]
  · have hlt : s.bitIdx.toNat < 39 := Nat.lt_of_le_of_ne h.bitBound hidx
    simp [hp, hline, hlt]
  · simp [hp, hline, hidx]
  · simp [hw, hline, hl]
  · have hlt : s.tmr < 200 := Nat.lt_of_le_of_ne (h.timerWait (phaseIsWait_of_waitTarget _ _ hw)) hl
    simp [hph, hw, hline, hlt]

/-- Settles O45: reset comes to IDLE, part 2 follows the table, and only a READ accepted in Initialized mode leaves IDLE. -/
theorem phaseTransitionsAreTheTables : Obligations.PhaseTransitionsAreTheTables := by
  unfold Obligations.PhaseTransitionsAreTheTables
  intro s t hinv h
  rcases step_cases s t h with ⟨hr, rfl⟩ | ⟨hr, -⟩
  · exact .inl ⟨hr, rfl⟩
  refine .inr ⟨hr, ?_⟩
  rcases step_cases_accept s t h hr with ⟨-, hread, b, rfl⟩ | ⟨hinit, rfl⟩ | ⟨hread, hmode, rfl⟩ | ⟨hread, hmode, rfl⟩
  · exact mayEnter_phaseAction s (elapse s) hinv rfl hread
  · exact .inr (.inl ⟨ph_of_acceptsInit s hinit, ph_of_acceptsInit s hinit,
      fun hread => not_acceptsRead_of_acceptsInit s hinit hread.1⟩)
  · exact .inl ⟨ph_of_acceptsRead s hread, rfl, hread, hmode⟩
  · exact .inr (.inl ⟨ph_of_acceptsRead s hread, rfl, by simp [hmode]⟩)

/-! ## The fresh frame -/

/-- The next phase of a READ finds the frame as fresh as the last one left it: the index is still 0 where the bits begin. -/
theorem State.FreshFrame.enter {t : State} (h : t.FreshFrame) (hidle : t.ph ≠ .idle) (hgate : t.ph ≠ .paceWait)
    (hbit : t.ph ≠ .bitLow) : (enter (phaseSuccessor t.ph) t).FreshFrame := by
  have hshake := h.handshake
  have hbits := h.bits
  cases hq : t.ph <;> constructor <;> simp_all [phaseSuccessor]

/-- Storing bit `bit_idx` leaves the cells after it at 0. -/
theorem State.FreshFrame.storeBit {t : State} (h : t.FreshFrame) (b : Bool) (hph : t.ph = .bitLow)
    (hidx : t.bitIdx.toNat ≠ 39) : (storeBit b t).FreshFrame := by
  obtain ⟨hbound, hzero⟩ := h.bits (.inr hph)
  have hnext : (t.bitIdx + 1).toNat = t.bitIdx.toNat + 1 := by
    change (t.bitIdx + 1#6).toNat = _
    bv_omega
  refine ⟨nofun, fun _ => ?_⟩
  rw [storeBit_bitIdx, storeBit_frame, hnext]
  refine ⟨by omega, fun i hlow hup => ?_⟩
  rw [frameBitWrite_getLsbD _ _ _ _ (by omega), if_neg (by omega)]
  exact hzero i (by omega) hup

theorem PhaseUpdate.freshFrame {s t : State} (hupd : PhaseUpdate s (elapse s) t) (h : s.FreshFrame) : t.FreshFrame := by
  have ht : (elapse s).FreshFrame := { h with }
  cases hupd with
  | idle | held => exact ht
  | opened => exact ⟨fun _ => ⟨rfl, rfl⟩, nofun⟩
  | entered hidle hgate hbit => exact ht.enter hidle hgate hbit
  | counted => exact { ht with }
  | stored hph hidx => exact ht.storeBit _ hph hidx
  | captured => exact freshFrame_of_ph _ (.inl (onFrame_ph _ _ _))
  | timedOut => exact freshFrame_of_ph _ (.inl rfl)

/-- Settles O49: part 2 by its update; an accepted command leaves the block in IDLE or PACE_WAIT. -/
theorem everyStepKeepsFreshFrame : Obligations.EveryStepKeepsFreshFrame := by
  unfold Obligations.EveryStepKeepsFreshFrame
  intro s t h hstep
  rcases step_cases s t hstep with ⟨-, rfl⟩ | ⟨hr, -⟩
  · exact freshFrame_of_ph _ (.inl rfl)
  rcases step_cases_accept s t hstep hr with ⟨-, -, b, rfl⟩ | ⟨hinit, rfl⟩ | ⟨-, -, rfl⟩ | ⟨-, -, rfl⟩
  · exact { (phaseAction_update s (elapse s)).freshFrame h with }
  · exact freshFrame_of_ph _ (.inl (ph_of_acceptsInit s hinit))
  · exact freshFrame_of_ph _ (.inr rfl)
  · exact freshFrame_of_ph _ (.inl rfl)

end Sys2Proof.Machine
end

section
/-! The register port (20_memory.md R43, R44): a tick in which no CMD write is presented sees `rst` and the line alone. -/

namespace Sys2Proof.Machine

/-! ## No CMD write -/

theorem cmdWrite_of_regAddr_ne (i : Input) (h : i.regAddr ≠ 0) : cmdWrite i = false := by
  rw [cmdWrite, decide_eq_false h, Bool.and_false]

theorem cmdWrite_of_no_regWe (i : Input) (h : i.regWe = false) : cmdWrite i = false := by
  simp [cmdWrite, h]

theorem commandPart_of_no_cmdWrite (s t : State) (h : cmdWrite s.input = false) : commandPart s t = t := by
  simp [commandPart, h]

/-! ## Another input with the same level on the line -/

section
variable (s t : State) (i : Input) (hline : i.lineIn = s.input.lineIn)
include hline

/-- The waiter reads the line and the timer alone (41_waiter.md R101). -/
theorem waitStep_withInput (n : Nat) (level : Bool) (f g : State → State) :
    waitStep n level f g (s.withInput i) t = waitStep n level f g s t := by
  unfold waitStep
  rw [withInput_input, hline]
  rfl

/-- Part 2 reads no input but the line: the wait phases through the waiter, the others not even that. -/
theorem phaseAction_withInput (p : Config.Params) : phaseAction p (s.withInput i) t = phaseAction p s t := by
  by_cases hwait : phaseIsWait s.ph = true
  · have hph : (s.withInput i).ph = s.ph := rfl
    unfold phaseAction
    rw [hph]
    cases hq : s.ph <;> simp only [hq, phaseIsWait, Bool.false_eq_true] at hwait
    case ackLow | ackHigh | dataLow | bitHigh | bitLow => exact waitStep_withInput s t i hline _ _ _ _
  · exact phaseAction_withInput_of_not_wait p s t i (Bool.eq_false_of_not_eq_true hwait)

end

/-- Two inputs that present no CMD write and agree in `rst` and in the line give the same tick. -/
theorem step_withInput_of_no_cmdWrite (s : State) (i : Input) (hs : cmdWrite s.input = false) (hi : cmdWrite i = false)
    (hrst : s.input.rst = i.rst) (hline : i.lineIn = s.input.lineIn) : step s = step (s.withInput i) := by
  refine step_congr _ _ hrst rfl rfl ?_
  rw [commandPart_of_no_cmdWrite s _ hs, commandPart_of_no_cmdWrite (s.withInput i) _ hi, elapse_withInput,
    phaseAction_withInput s _ i hline]

/-- Settles O36: a write to another index presents no command, as no write does. -/
theorem otherWritesAreIgnored : Obligations.OtherWritesAreIgnored := by
  unfold Obligations.OtherWritesAreIgnored
  exact fun s haddr => step_withInput_of_no_cmdWrite s _ (cmdWrite_of_regAddr_ne _ haddr) (cmdWrite_of_no_regWe _ rfl)
    rfl rfl

/-- Settles O37: without `reg_we` no command is presented, whatever the index and the data. -/
theorem readsHaveNoSideEffect : Obligations.ReadsHaveNoSideEffect := by
  unfold Obligations.ReadsHaveNoSideEffect
  exact fun s _ _ hwe => step_withInput_of_no_cmdWrite s _ (cmdWrite_of_no_regWe _ hwe) (cmdWrite_of_no_regWe _ hwe)
    rfl rfl

end Sys2Proof.Machine
end

section
/-! The fields of an encoded word and the decoder on them (30_encoding.md R60 to R67, R71). -/

namespace Sys2Proof

/-! ## Fields -/

/-- A field of a word, compared bit by bit. -/
theorem extractLsb'_eq_of_bits {w start len : Nat} (x : BitVec w) (y : BitVec len)
    (h : ∀ i, i < len → x.getLsbD (start + i) = y.getLsbD i) : x.extractLsb' start len = y := by
  apply BitVec.eq_of_getLsbD_eq
  intro i hi
  rw [BitVec.getLsbD_extractLsb', h i hi, decide_eq_true hi, Bool.true_and]

theorem ignored_encodeCmd (op : BitVec 2) (g : BitVec 30) : (encodeCmd op g).extractLsb' 2 30 = g := by
  refine extractLsb'_eq_of_bits _ _ fun i _ => ?_
  rw [encodeCmd_getLsbD, if_neg (by omega), Nat.add_sub_cancel_left]

theorem ignHi_encodeInit (pin : Byte) (gh : BitVec 16) (gl : BitVec 6) :
    (encodeInit pin gh gl).extractLsb' 16 16 = gh := by
  refine extractLsb'_eq_of_bits _ _ fun i _ => ?_
  rw [encodeInit_getLsbD, if_neg (by omega), if_neg (by omega), if_neg (by omega), Nat.add_sub_cancel_left]

theorem ignLo_encodeInit (pin : Byte) (gh : BitVec 16) (gl : BitVec 6) :
    (encodeInit pin gh gl).extractLsb' 2 6 = gl := by
  refine extractLsb'_eq_of_bits _ _ fun i _ => ?_
  rw [encodeInit_getLsbD, if_neg (by omega), if_pos (by omega), Nat.add_sub_cancel_left]

section
variable (hum : BitVec 16) (neg : Bool) (mag : BitVec 15) (check : Byte)

theorem hum_encodeFrame : (encodeFrame hum neg mag check).extractLsb' 24 16 = hum := by
  refine extractLsb'_eq_of_bits _ _ fun i _ => ?_
  rw [encodeFrame_getLsbD, if_neg (by omega), if_neg (by omega), if_neg (by omega), Nat.add_sub_cancel_left]

theorem neg_encodeFrame : (encodeFrame hum neg mag check).getLsbD 23 = neg := by
  rw [encodeFrame_getLsbD, if_neg (by omega), if_neg (by omega), if_pos rfl]

theorem mag_encodeFrame : (encodeFrame hum neg mag check).extractLsb' 8 15 = mag := by
  refine extractLsb'_eq_of_bits _ _ fun i _ => ?_
  rw [encodeFrame_getLsbD, if_neg (by omega), if_pos (by omega), Nat.add_sub_cancel_left]

theorem check_encodeFrame : (encodeFrame hum neg mag check).extractLsb' 0 8 = check :=
  (Laws.EncodingFormat.frame hum neg mag check).2

end

/-- A frame is put together again from its fields. -/
theorem encodeFrame_fields (f : Frame) :
    encodeFrame (f.extractLsb' 24 16) (f.getLsbD 23) (f.extractLsb' 8 15) (f.extractLsb' 0 8) = f := by
  apply BitVec.eq_of_getLsbD_eq
  intro i hi
  rw [encodeFrame_getLsbD, BitVec.getLsbD_extractLsb', BitVec.getLsbD_extractLsb', BitVec.getLsbD_extractLsb']
  by_cases hcheck : i < 8
  · simp [hcheck]
  by_cases hmag : i < 23
  · have hlt : i - 8 < 15 := by omega
    simp [hcheck, hmag, hlt, Nat.add_sub_cancel' (Nat.le_of_not_lt hcheck)]
  by_cases hneg : i = 23
  · simp [hneg]
  · have hlt : i - 24 < 16 := by omega
    simp [hcheck, hmag, hneg, hlt, Nat.add_sub_cancel' (show 24 ≤ i by omega)]

/-! ## The decoder by the low two bits (30_encoding.md R61) -/

section
variable (w : Word)

theorem decodeCmd_of_op_zero (h : w.extractLsb' 0 2 = 0) : decodeCmd w = .nop (w.extractLsb' 2 30) := by
  rw [decodeCmd, h]
  rfl

theorem decodeCmd_of_op_one (h : w.extractLsb' 0 2 = 1) :
    decodeCmd w = .init (w.extractLsb' 8 8) (w.extractLsb' 16 16) (w.extractLsb' 2 6) := by
  rw [decodeCmd, h]
  rfl

theorem decodeCmd_of_op_two (h : w.extractLsb' 0 2 = 2) : decodeCmd w = .read (w.extractLsb' 2 30) := by
  rw [decodeCmd, h]
  rfl

theorem decodeCmd_of_op_three (h : w.extractLsb' 0 2 = 3) : decodeCmd w = .rsvd (w.extractLsb' 2 30) := by
  rw [decodeCmd, h]
  rfl

end

/-- An INIT word decodes to its three fields. -/
theorem decodeCmd_encodeInit (pin : Byte) (gh : BitVec 16) (gl : BitVec 6) :
    decodeCmd (encodeInit pin gh gl) = .init pin gh gl := by
  obtain ⟨-, hop, hpin⟩ := Laws.EncodingFormat.init pin gh gl
  rw [decodeCmd_of_op_one _ hop, hpin, ignHi_encodeInit, ignLo_encodeInit]

/-- A frame decodes to its four fields. -/
theorem decodeFrame_encodeFrame (hum : BitVec 16) (neg : Bool) (mag : BitVec 15) (check : Byte) :
    decodeFrame (encodeFrame hum neg mag check) = .frame hum neg mag check := by
  rw [decodeFrame, hum_encodeFrame, neg_encodeFrame, mag_encodeFrame, check_encodeFrame]

/-- Settles O1: a command or frame by its fields, a phase, result or pacing code by its table. -/
theorem decodeInvertsEncode : Obligations.DecodeInvertsEncode := by
  unfold Obligations.DecodeInvertsEncode
  intro i
  cases i with
  | nop g =>
    refine congrArg Except.ok ?_
    rw [decodeCmd_of_op_zero _ (Laws.EncodingFormat.low_encodeCmd 0 g), ignored_encodeCmd]
  | init pin gh gl => exact congrArg Except.ok (decodeCmd_encodeInit pin gh gl)
  | read g =>
    refine congrArg Except.ok ?_
    rw [decodeCmd_of_op_two _ (Laws.EncodingFormat.low_encodeCmd 2 g), ignored_encodeCmd]
  | rsvd g =>
    refine congrArg Except.ok ?_
    rw [decodeCmd_of_op_three _ (Laws.EncodingFormat.low_encodeCmd 3 g), ignored_encodeCmd]
  | idle | paceWait | startLow | startHigh | ackLow | ackHigh | dataLow | bitHigh | bitLow => rfl
  | ok | notInitialized | timeout | checksumError | invalidData => rfl
  | neverRead | ready | mustWait => rfl
  | frame hum neg mag check => exact congrArg Except.ok (decodeFrame_encodeFrame hum neg mag check)

/-- Settles O5: bits [1:0] choose the row of the decoder. -/
theorem lowBitsChooseTheCommand : Obligations.LowBitsChooseTheCommand := by
  unfold Obligations.LowBitsChooseTheCommand
  exact fun w => ⟨fun h => ⟨_, congrArg Except.ok (decodeCmd_of_op_zero w h)⟩,
    fun h => ⟨_, _, congrArg Except.ok (decodeCmd_of_op_one w h)⟩,
    fun h => ⟨_, congrArg Except.ok (decodeCmd_of_op_two w h)⟩,
    fun h => ⟨_, congrArg Except.ok (decodeCmd_of_op_three w h)⟩⟩

/-- Settles O6: words with one `OP` decode to one constructor, and no meaning reads the ignored operands. -/
theorem ignoredBitsNeverMatter : Obligations.IgnoredBitsNeverMatter := by
  unfold Obligations.IgnoredBitsNeverMatter
  intro s w w' hsame hpin
  rcases decodeCmd_cases w with ⟨hop, hd⟩ | ⟨hop, hd⟩ | ⟨hop, hd⟩ | ⟨hop, hd⟩ <;> rw [hd]
  · rw [decodeCmd_of_op_zero w' (hsame.symm.trans hop)]
    rfl
  · rw [decodeCmd_of_op_one w' (hsame.symm.trans hop), hpin hop]
    rfl
  · rw [decodeCmd_of_op_two w' (hsame.symm.trans hop)]
    rfl
  · rw [decodeCmd_of_op_three w' (hsame.symm.trans hop)]
    rfl

/-! ## The codes that name something (30_encoding.md R65, R66, R67) -/

theorem decodePhase_ok_iff (c : BitVec 4) : (∃ p, decodePhase c = .ok p) ↔ c.toNat ≤ 8 := by
  constructor
  · rintro ⟨p, h⟩
    rw [← phase_code_of_decode c p h]
    cases p <;> decide
  · intro h
    unfold decodePhase
    interval_cases c.toNat <;> exact ⟨_, rfl⟩

theorem decodeResult_ok_iff (c : BitVec 3) : (∃ r, decodeResult c = .ok r) ↔ c.toNat ≤ 4 := by
  constructor
  · rintro ⟨r, h⟩
    rw [← result_code_of_decode c r h]
    cases r <;> decide
  · intro h
    unfold decodeResult
    interval_cases c.toNat <;> exact ⟨_, rfl⟩

theorem decodePaceState_ok_iff (c : BitVec 2) : (∃ q, decodePaceState c = .ok q) ↔ c.toNat ≤ 2 := by
  constructor
  · rintro ⟨q, h⟩
    rw [← paceState_code_of_decode c q h]
    cases q <;> decide
  · intro h
    unfold decodePaceState
    interval_cases c.toNat <;> exact ⟨_, rfl⟩

/-- A code names an instruction exactly when it names a value of its table. -/
theorem map_eq_ok_iff {ε α β : Type} (x : Except ε α) (f : α → β) (b : β) :
    x.map f = .ok b ↔ ∃ a, x = .ok a ∧ f a = b := by
  cases x <;> simp [Except.map]

theorem exists_map_eq_ok_iff {ε α β : Type} (x : Except ε α) (f : α → β) :
    (∃ b, x.map f = .ok b) ↔ ∃ a, x = .ok a := by
  simp [map_eq_ok_iff]

/-- Settles O3, format by format. -/
theorem decodeAcceptsDefinedCodes : Obligations.DecodeAcceptsDefinedCodes := by
  unfold Obligations.DecodeAcceptsDefinedCodes
  intro e
  cases e with
  | cmd w => exact ⟨fun _ => rfl, fun _ => ⟨_, rfl⟩⟩
  | phase c => exact (exists_map_eq_ok_iff _ _).trans ((decodePhase_ok_iff c).trans decide_eq_true_iff.symm)
  | result c => exact (exists_map_eq_ok_iff _ _).trans ((decodeResult_ok_iff c).trans decide_eq_true_iff.symm)
  | paceState c => exact (exists_map_eq_ok_iff _ _).trans ((decodePaceState_ok_iff c).trans decide_eq_true_iff.symm)
  | frame f => exact ⟨fun _ => rfl, fun _ => ⟨_, rfl⟩⟩

/-- Settles O4: each word is computed by the decoder. -/
theorem writtenOutWordsDecode : Obligations.WrittenOutWordsDecode := by
  unfold Obligations.WrittenOutWordsDecode
  decide

end Sys2Proof
end

section
/-! The states made to run a table word (Machine/Fetch.lean; log entries 10 and 13): what each of them does next. -/

namespace Sys2Proof.Machine

/-- Two effects that agree on the state under construction make one tick. -/
theorem tickTo_congr (p : Config.Params) (s : State) (f g : State → State) (h : f (elapse s) = g (elapse s)) :
    tickTo p s f = tickTo p s g := by
  unfold tickTo
  rw [h]

/-- A tick with no reset and no CMD write runs the phase held. -/
theorem step_of_quiet (s : State) (hr : s.input.rst = false) (hw : cmdWrite s.input = false) :
    step s = tickTo Config.params s (phaseAction Config.params s) := by
  rw [step_of_no_rst s hr, fetch_of_no_cmdWrite s hw]
  exact tickTo_congr _ _ _ _ (instrEffect_phase _ _ _)

/-! ## The capture tick -/

/-- The width that `withCapture` puts in the timer decodes to the last bit, so the frame captured is the frame given. -/
theorem capturedFrame_withCapture (s : State) (f : Frame) : (s.withCapture f).capturedFrame = f := by
  apply BitVec.eq_of_getLsbD_eq
  intro i hi
  have hbit : pulseBit 50 (if f.getLsbD 0 then 50 else 0) = f.getLsbD 0 := by
    cases f.getLsbD 0 <;> rfl
  change (frameBitWrite f 39 (pulseBit 50 (if f.getLsbD 0 then 50 else 0))).getLsbD i = _
  rw [hbit, frameBitWrite_getLsbD _ _ _ _ hi]
  split_ifs with h0
  · rw [h0]
  · rfl

theorem step_withCapture (s : State) (f : Frame) :
    step (s.withCapture f) = tickTo Config.params (s.withCapture f) (onFrame Config.params f) := by
  refine (step_of_quiet _ rfl rfl).trans (tickTo_congr _ _ _ _ ?_)
  change onFrame Config.params (s.withCapture f).capturedFrame (elapse (s.withCapture f)) = _
  rw [capturedFrame_withCapture]

/-- A frame whose last bit is 0 leaves nothing to store: it stands in the state already, with the timer at 0. -/
theorem storeFrame_withCapture (s : State) (f : Frame) (h : f.getLsbD 0 = false) :
    storeFrame f (elapse (s.withCapture f)) = elapse (s.withCapture f) := by
  rw [storeFrame, elapse, State.withCapture, h]
  rfl

/-! ## Each format -/

/-- The state made to end a READ with a result ends it so: OK, CHECKSUM_ERROR and INVALID_DATA by a frame with that
outcome. -/
theorem step_withResult (s : State) (r : ResultCode) : step (s.withResult r) = exec r.instr (s.withResult r) := by
  cases r with
  | ok =>
    refine (step_withCapture s 0x0000000000).trans (tickTo_congr _ _ _ _ ?_)
    exact congrArg (onOk Config.params) (storeFrame_withCapture s 0x0000000000 rfl)
  | notInitialized => rfl
  | timeout => exact step_of_quiet _ rfl rfl
  | checksumError =>
    refine (step_withCapture s 0x0000000002).trans (tickTo_congr _ _ _ _ ?_)
    exact congrArg (onChecksumError Config.params) (storeFrame_withCapture s 0x0000000002 rfl)
  | invalidData =>
    refine (step_withCapture s 0x03E90000EC).trans (tickTo_congr _ _ _ _ ?_)
    exact congrArg (onInvalidData Config.params) (storeFrame_withCapture s 0x03E90000EC rfl)

/-- The state made to hold a READ in a pacing state runs that row. -/
theorem step_withPaceState (s : State) (q : PaceState) :
    step (s.withPaceState q) = exec q.instr (s.withPaceState q) := by
  cases q <;> exact step_of_quiet _ rfl rfl

theorem step_withPhase (s : State) (q : Phase) :
    step { s.withQuietTick with ph := q } = exec q.instr { s.withQuietTick with ph := q } := by
  rw [step_of_quiet _ rfl rfl, exec_eq_tickTo]
  exact tickTo_congr _ _ _ _ (instrEffect_phase _ _ _).symm

theorem withEncoded_phase (s : State) (c : BitVec 4) (q : Phase) (h : decodePhase c = .ok q) :
    s.withEncoded (.phase c) = { s.withQuietTick with ph := q } := by
  rw [State.withEncoded, h]

theorem withEncoded_result (s : State) (c : BitVec 3) (r : ResultCode) (h : decodeResult c = .ok r) :
    s.withEncoded (.result c) = s.withResult r := by
  rw [State.withEncoded, h]

theorem withEncoded_paceState (s : State) (c : BitVec 2) (q : PaceState) (h : decodePaceState c = .ok q) :
    s.withEncoded (.paceState c) = s.withPaceState q := by
  rw [State.withEncoded, h]

/-- The state made to run a coded word runs the instruction it decodes to. -/
theorem step_withEncoded (s : State) (e : Encoded) (i : Instr) (h : decode e = .ok i) :
    step (s.withEncoded e) = exec i (s.withEncoded e) := by
  cases e with
  | cmd w =>
    cases h
    rfl
  | phase c =>
    obtain ⟨q, hd, rfl⟩ := (map_eq_ok_iff _ _ _).1 h
    rw [withEncoded_phase s c q hd, step_withPhase]
  | result c =>
    obtain ⟨r, hd, rfl⟩ := (map_eq_ok_iff _ _ _).1 h
    rw [withEncoded_result s c r hd, step_withResult]
  | paceState c =>
    obtain ⟨q, hd, rfl⟩ := (map_eq_ok_iff _ _ _).1 h
    rw [withEncoded_paceState s c q hd, step_withPaceState]
  | frame f =>
    cases h
    refine (step_withCapture s f).trans (tickTo_congr _ _ _ _ ?_)
    exact congrArg (fun g => onFrame Config.params g _) (encodeFrame_fields f).symm

/-- A table word decodes where its number is a coded word of its format that decodes. -/
theorem decodeTableWord_eq_some_iff (nbits w : Nat) (i : Instr) :
    decodeTableWord nbits w = some i ↔ ∃ e, encodedOfTable nbits w = some e ∧ decode e = .ok i := by
  unfold decodeTableWord
  cases encodedOfTable nbits w with
  | none => simp
  | some e => cases hd : decode e <;> simp [hd]

/-- Settles O8: the state is prepared for the coded word, and each format's state runs it. -/
theorem tableWordRunsNext : Obligations.TableWordRunsNext := by
  unfold Obligations.TableWordRunsNext
  intro s nbits w i h
  obtain ⟨e, he, hi⟩ := (decodeTableWord_eq_some_iff nbits w i).1 h
  have hprep : s.withFetchWord nbits w = s.withEncoded e := by rw [State.withFetchWord, he]
  rw [hprep]
  exact step_withEncoded s e i hi

end Sys2Proof.Machine
end

section
/-! Runs: every step moves the inputs one tick nearer, the tick after `k` ticks, and the start pulse (42_handshake.md R110,
R111, R117). -/

namespace Sys2Proof.Machine

/-! ## The model's own fields -/

/-- Part 2 leaves the model's own fields to part 1. -/
theorem PhaseUpdate.own {s t t' : State} (h : PhaseUpdate s t t') : t'.inputs = t.inputs ∧ t'.tick = t.tick := by
  cases h
  case captured =>
    rcases onFrame_forms Config.params s.capturedFrame t with ⟨c, -, he⟩ | ⟨-, -, he⟩ <;> rw [he] <;> exact ⟨rfl, rfl⟩
  all_goals exact ⟨rfl, rfl⟩

/-- Every step, reset or not, takes the head of the list and counts the tick (log entries 1 and 2). -/
theorem step_own (s t : State) (h : step s = .next t) : t.inputs = s.inputs.tail ∧ t.tick = s.tick + 1 := by
  rcases step_cases s t h with ⟨-, rfl⟩ | ⟨hr, -⟩
  · exact ⟨rfl, rfl⟩
  rcases step_cases_accept s t h hr with ⟨-, -, b, rfl⟩ | ⟨-, rfl⟩ | ⟨-, -, rfl⟩ | ⟨-, -, rfl⟩
  · exact (phaseAction_update s (elapse s)).own
  all_goals exact ⟨rfl, rfl⟩

theorem inputAt_of_step (s t : State) (h : step s = .next t) (j : Nat) : t.inputAt j = s.inputAt (j + 1) := by
  obtain ⟨hi, ht⟩ := step_own s t h
  exact inputAt_of_moved s t hi ht j

/-- The inputs of a state reached in `k` ticks are those `k` ticks ahead. -/
theorem inputAt_of_ticks (k : Nat) (s t : State) (h : ticks k s = .next t) (j : Nat) :
    t.inputAt j = s.inputAt (j + k) := by
  induction k generalizing s with
  | zero => cases h; rfl
  | succ k ih =>
    obtain ⟨u, hstep, hrest⟩ := (ticks_succ_next_iff k s t).1 h
    rw [ih u hrest, inputAt_of_step s u hstep, Nat.add_assoc]

/-- A tick that is taken within a span without reset is one without reset. -/
theorem noReset_of_ticks (n k : Nat) (s t : State) (hno : s.noResetFor n) (hk : k < n) (h : ticks k s = .next t) :
    t.input.rst = false := by
  rw [← inputAt_zero, inputAt_of_ticks k s t h, Nat.zero_add]
  exact hno k hk

/-! ## Runs from their end -/

/-- A run of `k + 1` ticks is a run of `k` ticks and one more. -/
theorem ticks_succ_last_iff (k : Nat) (s t : State) :
    ticks (k + 1) s = .next t ↔ ∃ u, ticks k s = .next u ∧ step u = .next t := by
  induction k generalizing s with
  | zero => simp [ticks_succ_next_iff]
  | succ k ih =>
    rw [ticks_succ_next_iff]
    simp only [ih, ticks_succ_next_iff k s]
    exact ⟨fun ⟨v, hfirst, u, hmid, hlast⟩ => ⟨u, ⟨v, hfirst, hmid⟩, hlast⟩,
      fun ⟨u, ⟨v, hfirst, hmid⟩, hlast⟩ => ⟨v, hfirst, u, hmid, hlast⟩⟩

/-- A state with the invariant of R33 runs on for ever, and keeps it. -/
theorem ticks_of_inv (k : Nat) (s : State) (h : s.Inv) : ∃ t, ticks k s = .next t ∧ t.Inv := by
  induction k generalizing s with
  | zero => exact ⟨s, rfl, h⟩
  | succ k ih =>
    obtain ⟨u, hstep⟩ := step_of_inRange s h.inRange
    obtain ⟨t, hrun, ht⟩ := ih u (everyStepKeepsInv s u h hstep)
    exact ⟨t, (ticks_succ_of_next k s u hstep).trans hrun, ht⟩

/-! ## The start pulse -/

/-- A busy block accepts no command: its tick is parts 1 and 2 but for `cmd_fault` (40_commands.md R87). -/
theorem step_of_busy (s t : State) (h : step s = .next t) (hr : s.input.rst = false) (hbusy : s.ph ≠ .idle) :
    ∃ b, t = (phaseAction Config.params s (elapse s)).withFault b := by
  rcases step_cases_accept s t h hr with ⟨-, -, hb⟩ | ⟨hinit, -⟩ | ⟨hread, -⟩ | ⟨hread, -⟩
  · exact hb
  · exact absurd (ph_of_acceptsInit s hinit) hbusy
  · exact absurd (ph_of_acceptsRead s hread) hbusy
  · exact absurd (ph_of_acceptsRead s hread) hbusy

/-- A tick of a hold phase of `len` ticks: the last one enters the next phase, the others count. -/
theorem step_of_hold (len : Nat) (q : Phase) (s t : State) (h : step s = .next t) (hr : s.input.rst = false)
    (hbusy : s.ph ≠ .idle) (hact : phaseAction Config.params s (elapse s) = holdStep len q s (elapse s)) :
    (s.tmr = len - 1 ∧ t.ph = q ∧ t.tmr = 0) ∨ (s.tmr ≠ len - 1 ∧ t.ph = s.ph ∧ t.tmr = s.tmr + 1) := by
  obtain ⟨b, rfl⟩ := step_of_busy s t h hr hbusy
  rcases holdStep_cases len q s (elapse s) with ⟨htmr, he⟩ | ⟨htmr, he⟩ <;> rw [hact, he]
  · exact .inl ⟨htmr, rfl, rfl⟩
  · exact .inr ⟨htmr, rfl, rfl⟩

/-- A tick of START_LOW (42_handshake.md R110). -/
theorem step_of_startLow (s t : State) (h : step s = .next t) (hr : s.input.rst = false) (hph : s.ph = .startLow) :
    (s.tmr = 17999 ∧ t.ph = .startHigh ∧ t.tmr = 0) ∨ (s.tmr ≠ 17999 ∧ t.ph = .startLow ∧ t.tmr = s.tmr + 1) := by
  have hact : phaseAction Config.params s (elapse s) = holdStep 18000 .startHigh s (elapse s) := by
    rw [phaseAction, hph]
    rfl
  exact hph ▸ step_of_hold 18000 .startHigh s t h hr (by simp [hph]) hact

/-- A tick of START_HIGH (42_handshake.md R111). -/
theorem step_of_startHigh (s t : State) (h : step s = .next t) (hr : s.input.rst = false) (hph : s.ph = .startHigh) :
    (s.tmr = 29 ∧ t.ph = .ackLow ∧ t.tmr = 0) ∨ (s.tmr ≠ 29 ∧ t.ph = .startHigh ∧ t.tmr = s.tmr + 1) := by
  have hact : phaseAction Config.params s (elapse s) = holdStep 30 .ackLow s (elapse s) := by
    rw [phaseAction, hph]
    rfl
  exact hph ▸ step_of_hold 30 .ackLow s t h hr (by simp [hph]) hact

/-- Where the block is `k` ticks after it entered START_LOW, up to the tick that enters ACK_LOW. -/
inductive StartPulseAt (k : Nat) (t : State) : Prop
  | low (hk : k < 18000) (hph : t.ph = .startLow) (htmr : t.tmr = k) : StartPulseAt k t
  | high (hk : k < 18030) (hph : t.ph = .startHigh) (htmr : t.tmr + 18000 = k) : StartPulseAt k t
  | released (hk : k = 18030) (hph : t.ph = .ackLow) (htmr : t.tmr = 0) : StartPulseAt k t

/-- One tick moves the start pulse on by one. -/
theorem StartPulseAt.step {k : Nat} {s t : State} (hpulse : StartPulseAt k s) (hk : k < 18030)
    (h : step s = .next t) (hr : s.input.rst = false) : StartPulseAt (k + 1) t := by
  cases hpulse with
  | low hlow hph htmr =>
    rcases step_of_startLow s t h hr hph with ⟨hlast, hph', htmr'⟩ | ⟨hlast, hph', htmr'⟩
    · exact .high (by omega) hph' (by omega)
    · exact .low (by omega) hph' (by omega)
  | high _ hph htmr =>
    rcases step_of_startHigh s t h hr hph with ⟨hlast, hph', htmr'⟩ | ⟨hlast, hph', htmr'⟩
    · exact .released (by omega) hph' htmr'
    · exact .high (by omega) hph' (by omega)
  | released hend => exact absurd hend (Nat.ne_of_lt hk)

/-- The start pulse runs through, whatever the line and the host do. -/
theorem startPulseAt_ticks (s : State) (hph : s.ph = .startLow) (htmr : s.tmr = 0) (hno : s.noResetFor 18030) (k : Nat)
    (hk : k ≤ 18030) (t : State) (h : ticks k s = .next t) : StartPulseAt k t := by
  induction k generalizing t with
  | zero =>
    cases h
    exact .low (by omega) hph htmr
  | succ k ih =>
    obtain ⟨u, hrun, hstep⟩ := (ticks_succ_last_iff k s t).1 h
    exact (ih (by omega) u hrun).step hk hstep (noReset_of_ticks 18030 k s u hno hk hrun)

/-- Settles O52: the phase after `k` ticks decides the pad signals. -/
theorem startPulseWaveform : Obligations.StartPulseWaveform := by
  unfold Obligations.StartPulseWaveform
  intro s hinv hph htmr hno k hk
  obtain ⟨t, hrun, -⟩ := ticks_of_inv k s hinv
  refine ⟨t, hrun, ?_⟩
  cases startPulseAt_ticks s hph htmr hno k hk t hrun with
  | low hlow hph htmr =>
    refine ⟨fun _ => ?_, by omega, by omega⟩
    simp [State.lineOe, State.lineOut, hph]
  | high hhigh hph htmr =>
    refine ⟨by omega, fun _ _ => ?_, by omega⟩
    simp [State.lineOe, State.lineOut, hph]
  | released hend hph htmr =>
    refine ⟨by omega, by omega, fun _ => ⟨hph, htmr, ?_⟩⟩
    simp [State.lineOe, hph]

end Sys2Proof.Machine
end

section
/-! One tick of a command or of IDLE (40_commands.md R80 to R88), with every counter in range. -/

namespace Sys2Proof.Machine

/-! ## What a tick runs -/

/-- Settles O7: the word of the tick decodes to the instruction fetched. -/
theorem stepRunsTheDecodedInstruction : Obligations.StepRunsTheDecodedInstruction := by
  unfold Obligations.StepRunsTheDecodedInstruction
  intro s i hr h
  have hword : decode (fetchWord s) = .ok i := by
    rcases h with ⟨hwe, haddr, hd⟩ | ⟨hno, hd⟩
    · rwa [fetchWord, if_pos (by simp [cmdWrite, hwe, haddr])]
    · rwa [fetchWord, if_neg (by simpa [cmdWrite] using hno)]
  obtain rfl : fetch s = i := Except.ok.inj ((decode_fetchWord s).symm.trans hword)
  exact ⟨by simp [step, hr], step_eq_stepWith s, exec_eq_execWith _ s, fun p => by simp [stepWith, hr]⟩

/-- With every counter in range an instruction answers what its effect makes of part 1. -/
theorem exec_of_inRange (i : Instr) (s : State) (h : s.inRange) :
    exec i s = .next (instrEffect Config.params i s (elapse s)) := by
  rw [exec_eq_tickTo, tickTo_of_range _ _ _ ((inRange_iff_rangeFault s).1 h)]

/-- The instruction of the phase held is the tick with no write: parts 1 and 2. -/
theorem exec_phase_of_inRange (s : State) (h : s.inRange) :
    exec s.ph.instr s = .next (phaseAction Config.params s (elapse s)) := by
  rw [exec_of_inRange _ s h, instrEffect_phase]

theorem inRange_of_exec (i : Instr) (s t : State) (h : exec i s = .next t) : s.inRange := by
  rw [exec_eq_tickTo, tickTo_next_iff] at h
  exact (inRange_iff_rangeFault s).2 h.1

/-- Part 1 only counts down. -/
theorem State.inRange.elapse {s : State} (h : s.inRange) : (elapse s).inRange := by
  obtain ⟨htmr, hidx, hpace⟩ := h
  refine ⟨htmr, hidx, ?_⟩
  rw [elapse_paceCnt, countdown_eq]
  omega

/-! ## Accepted or dropped (40_commands.md R81, R87) -/

theorem present_of_idle (f : State → State) (s t : State) (h : s.ph = .idle) : present f s t = f t := if_pos h

theorem present_of_busy (f : State → State) (s t : State) (h : s.ph ≠ .idle) : present f s t = setCmdFault t := if_neg h

/-- A command accepted acts on part 1 alone: part 2 of IDLE does nothing (40_commands.md R88). -/
theorem present_phaseAction_of_idle (f : State → State) (s t : State) (h : s.ph = .idle) :
    present f s (phaseAction Config.params s t) = f t := by
  rw [present_of_idle f s _ h, phaseAction_idle _ _ _ h]

/-- Completion in IDLE leaves the phase. -/
theorem complete_of_idle (c : ResultCode) (t : State) (h : t.ph = .idle) :
    complete c t = { t with result := c, done := true } := by
  rw [complete, ← h]

/-! ## The commands one by one -/

/-- Settles O14: NOP and the phase's instruction both do part 2, which leaves `cmd_fault`. -/
theorem nopHasNoEffect : Obligations.NopHasNoEffect := by
  unfold Obligations.NopHasNoEffect
  exact fun g s h => ⟨decodeInvertsEncode (.nop g), _, exec_of_inRange (.nop g) s h, exec_phase_of_inRange s h,
    phaseAction_cmdFault s (elapse s)⟩

/-- Settles O15: an accepted INIT is `acceptInit` on part 1. -/
theorem initAccepted : Obligations.InitAccepted := by
  unfold Obligations.InitAccepted
  intro pin a b s h hidle
  refine ⟨decodeInvertsEncode (.init pin a b), acceptInit pin (elapse s), ?_, rfl, rfl, rfl, ?_⟩
  · rw [exec_of_inRange _ s h]
    exact congrArg _ (present_phaseAction_of_idle _ s _ hidle)
  · simp [State.lineOe, hidle]

/-- Settles O16: an accepted READ of an initialized block is `acceptRead` on part 1. -/
theorem readAccepted : Obligations.ReadAccepted := by
  unfold Obligations.ReadAccepted
  intro g s h hidle hmode
  rw [exec_of_inRange _ s h]
  exact congrArg _ ((present_phaseAction_of_idle _ s _ hidle).trans (if_pos hmode))

/-- A READ in Uninitialized mode completes in its own tick (40_commands.md R85). -/
theorem exec_read_of_uninitialized (g : BitVec 30) (s : State) (h : s.inRange) (hidle : s.ph = .idle)
    (hmode : s.initialized = false) :
    exec (.read g) s = .next { elapse s with result := .notInitialized, done := true } := by
  have hread : onRead s (elapse s) = complete .notInitialized (elapse s) := if_neg (by simp [hmode])
  rw [exec_of_inRange _ s h, ← complete_of_idle .notInitialized (elapse s) hidle, ← hread]
  exact congrArg _ (present_phaseAction_of_idle _ s _ hidle)

/-- Settles O17: the state after the READ is one in which a READ again ends so, and finds `result` and `done` as it would
write them. -/
theorem readUninitialized : Obligations.ReadUninitialized := by
  unfold Obligations.ReadUninitialized
  intro g g' s h hidle hmode
  refine ⟨decodeInvertsEncode (.read g), _, exec_read_of_uninitialized g s h hidle hmode, rfl, ?_, ?_, hmode, rfl, ?_, ?_⟩
  · simp [State.busy, hidle]
  · simp [State.lineOe, hidle]
  · intro hpace
    simp [hpace]
  · exact exec_read_of_uninitialized g' _ h.elapse hidle hmode

/-- Settles O18: RSVD does part 2 and sets `cmd_fault`. -/
theorem rsvdSetsCmdFault : Obligations.RsvdSetsCmdFault := by
  unfold Obligations.RsvdSetsCmdFault
  exact fun g s h => ⟨decodeInvertsEncode (.rsvd g), _, exec_phase_of_inRange s h, exec_of_inRange (.rsvd g) s h⟩

/-- Settles O19: outside IDLE part 3 is `setCmdFault` at most. -/
theorem busyCommandIsDropped : Obligations.BusyCommandIsDropped := by
  unfold Obligations.BusyCommandIsDropped
  intro s t hbusy hexec
  have h := inRange_of_exec _ s t hexec
  obtain rfl : phaseAction Config.params s (elapse s) = t :=
    Host.Outcome.next.inj ((exec_phase_of_inRange s h).symm.trans hexec)
  refine ⟨fun g => exec_of_inRange _ s h, fun pin a b => ?_, fun g => ?_, fun g => exec_of_inRange _ s h⟩
  · exact (exec_of_inRange _ s h).trans (congrArg _ (present_of_busy _ s _ hbusy))
  · exact (exec_of_inRange _ s h).trans (congrArg _ (present_of_busy _ s _ hbusy))

/-- Settles O20: part 2 of IDLE does nothing, and every output of R24 is a function of `ph`. -/
theorem idleOnlyCountsDown : Obligations.IdleOnlyCountsDown := by
  unfold Obligations.IdleOnlyCountsDown
  intro s h
  refine ⟨exec_of_inRange .idle s h, fun hidle => ?_⟩
  simp [State.lineOe, State.lineOut, State.busy, hidle]

end Sys2Proof.Machine
end

section
/-! Runs and the commands: a READ that fails, a block before INIT, and a busy block under two hosts (40_commands.md R85,
R87, R90). -/

namespace Sys2Proof.Machine

/-! ## A READ that fails (40_commands.md R90) -/

/-- A tick that does not end OK leaves the Reading. -/
theorem reading_of_step (s t : State) (h : step s = .next t) (hr : s.input.rst = false)
    (hfail : t.ph = .idle → t.result ≠ .ok) : t.tempX10 = s.tempX10 ∧ t.humX10 = s.humX10 := by
  rcases readingChangesOnlyOnOk s t h hr with hsame | ⟨-, hok, -, hidle, -⟩
  · exact hsame
  · exact absurd hok (hfail hidle)

/-- A run in which no tick ends OK leaves the Reading. -/
theorem reading_of_ticks (n : Nat) (s t : State) (hno : s.noResetFor n)
    (hfail : ∀ j u, 1 ≤ j → j ≤ n → ticks j s = .next u → u.ph = .idle → u.result ≠ .ok) (h : ticks n s = .next t) :
    t.tempX10 = s.tempX10 ∧ t.humX10 = s.humX10 := by
  induction n generalizing t with
  | zero =>
    cases h
    exact ⟨rfl, rfl⟩
  | succ n ih =>
    obtain ⟨u, hrun, hstep⟩ := (ticks_succ_last_iff n s t).1 h
    obtain ⟨htemp, hhum⟩ := ih u (fun j hj => hno j (by omega)) (fun j v h1 hj => hfail j v h1 (by omega)) hrun
    obtain ⟨htemp', hhum'⟩ := reading_of_step u t hstep (noReset_of_ticks _ n s u hno n.lt_succ_self hrun)
      (hfail (n + 1) t (by omega) le_rfl h)
    exact ⟨htemp'.trans htemp, hhum'.trans hhum⟩

/-- Settles O56: before its last tick the run is not in IDLE, and the last tick does not end OK. -/
theorem failedReadKeepsTheReading : Obligations.FailedReadKeepsTheReading := by
  unfold Obligations.FailedReadKeepsTheReading
  intro s t k hno hbusy hrun hfail
  refine reading_of_ticks (k + 1) s t hno (fun j u h1 hj hu hidle => ?_) hrun
  rcases Nat.lt_or_eq_of_le hj with hlt | rfl
  · exact absurd hidle (hbusy j u h1 (by omega) hu)
  · obtain rfl : u = t := Host.Outcome.next.inj (hu.symm.trans hrun)
    exact hfail hidle

/-! ## Before INIT (40_commands.md R85, 60_exceptions.md R188) -/

/-- Without an accepted INIT an Uninitialized block in IDLE stays one. -/
theorem uninitializedIdle_of_step (s t : State) (hmode : s.initialized = false) (hidle : s.ph = .idle)
    (hinit : ¬ s.acceptsInit) (h : step s = .next t) : t.initialized = false ∧ t.ph = .idle := by
  rcases step_cases s t h with ⟨-, rfl⟩ | ⟨hr, -⟩
  · exact ⟨rfl, rfl⟩
  rcases step_cases_accept s t h hr with ⟨-, -, b, rfl⟩ | ⟨hi, -⟩ | ⟨-, hi, -⟩ | ⟨-, -, rfl⟩
  · rw [phaseAction_idle _ _ _ hidle]
    exact ⟨hmode, hidle⟩
  · exact absurd hi hinit
  · simp [hmode] at hi
  · exact ⟨hmode, rfl⟩

theorem uninitializedIdle_of_ticks (k : Nat) (s t : State) (hmode : s.initialized = false) (hidle : s.ph = .idle)
    (hinit : ∀ j v, j < k → ticks j s = .next v → ¬ v.acceptsInit) (h : ticks k s = .next t) :
    t.initialized = false ∧ t.ph = .idle := by
  induction k generalizing t with
  | zero =>
    cases h
    exact ⟨hmode, hidle⟩
  | succ k ih =>
    obtain ⟨u, hrun, hstep⟩ := (ticks_succ_last_iff k s t).1 h
    obtain ⟨hmode', hidle'⟩ := ih u (fun j v hj => hinit j v (by omega)) hrun
    exact uninitializedIdle_of_step u t hmode' hidle' (hinit k u k.lt_succ_self hrun) hstep

/-- Settles O59: a clean Uninitialized block is in IDLE, and stays there and Uninitialized. -/
theorem noPadActivityBeforeInit : Obligations.NoPadActivityBeforeInit := by
  unfold Obligations.NoPadActivityBeforeInit
  intro s t k hclean hmode hinit hrun
  obtain ⟨hidle, -⟩ := hclean.sequencer hmode
  obtain ⟨hmode', hidle'⟩ := uninitializedIdle_of_ticks k s t hmode hidle hinit hrun
  simp [State.lineOe, State.pullEn, State.busy, hmode', hidle']

/-! ## Two hosts (40_commands.md R87) -/

/-- The elements of the block but `cmd_fault`, with the tick count: what `sameButFault` compares. -/
def State.erased (s : State) : State := { s with cmdFault := false, inputs := [] }

theorem sameButFault_iff (s u : State) : s.sameButFault u ↔ s.erased = u.erased := Iff.rfl

/-- Part 2 reads nothing of `S(t)` and `In(t)` but the elements compared and the line (10_state.md R25). -/
theorem phaseAction_erased_source (p : Config.Params) (s t : State) :
    phaseAction p s t = phaseAction p (s.erased.withInput (quietInput s.input.lineIn)) t := rfl

theorem waitStep_erased (n : Nat) (level : Bool) (f g : State → State) (s t : State) (hf : f t.erased = (f t).erased)
    (hg : g t.erased = (g t).erased) : waitStep n level f g s t.erased = (waitStep n level f g s t).erased := by
  unfold waitStep
  split_ifs
  · exact hf
  · exact hg
  · rfl

theorem pulseEnd_erased (p : Config.Params) (s t : State) : pulseEnd p s t.erased = (pulseEnd p s t).erased := by
  unfold pulseEnd onFrame
  split_ifs <;> rfl

/-- Part 2 makes of the elements compared what it makes of the whole state. -/
theorem phaseAction_erased_target (p : Config.Params) (s t : State) :
    phaseAction p s t.erased = (phaseAction p s t).erased := by
  unfold phaseAction
  cases s.ph with
  | idle => rfl
  | paceWait =>
    simp only [onPaceWait]
    split_ifs <;> rfl
  | startLow | startHigh =>
    simp only [onStartLow, onStartHigh, holdStep]
    split_ifs <;> rfl
  | ackLow | ackHigh | dataLow | bitHigh => exact waitStep_erased _ _ _ _ s t rfl rfl
  | bitLow => exact waitStep_erased _ _ _ _ s t (pulseEnd_erased p s t) rfl

/-- Part 2 of two ticks with the same level on the line. -/
theorem phaseAction_sameButFault (p : Config.Params) (s u : State) (h : s.sameButFault u)
    (hline : s.input.lineIn = u.input.lineIn) :
    (phaseAction p s (elapse s)).sameButFault (phaseAction p u (elapse u)) := by
  rw [sameButFault_iff] at h ⊢
  have helapse : (elapse s).erased = (elapse u).erased := congrArg elapse h
  rw [← phaseAction_erased_target, ← phaseAction_erased_target, phaseAction_erased_source p s,
    phaseAction_erased_source p u, helapse, h, hline]

/-- A tick of a busy block under another host: the same but for `cmd_fault`. -/
theorem step_sameButFault (s u t : State) (h : s.sameButFault u) (hline : s.input.lineIn = u.input.lineIn)
    (hrs : s.input.rst = false) (hru : u.input.rst = false) (hbusy : s.ph ≠ .idle) (hstep : step s = .next t) :
    ∃ v, step u = .next v ∧ t.sameButFault v := by
  have herased : s.erased = u.erased := h
  have hbusy' : u.ph ≠ .idle := fun hidle => hbusy ((congrArg State.ph herased).trans hidle)
  have hexec : exec (fetch s) s = .next t := by simpa [step, hrs] using hstep
  have hrange : u.inRange := (congrArg State.inRange herased).mp (inRange_of_exec _ s t hexec)
  obtain ⟨v, hv⟩ := step_of_inRange u hrange
  obtain ⟨b, rfl⟩ := step_of_busy s t hstep hrs hbusy
  obtain ⟨c, rfl⟩ := step_of_busy u v hv hru hbusy'
  exact ⟨_, hv, phaseAction_sameButFault _ s u h hline⟩

/-- Settles O60, tick by tick from the start of the two runs. -/
theorem hostCannotDisturbARead : Obligations.HostCannotDisturbARead := by
  unfold Obligations.HostCannotDisturbARead
  intro k
  induction k with
  | zero =>
    intro s u s' h _ _ _ _ hrun
    cases hrun
    exact ⟨u, rfl, h⟩
  | succ k ih =>
    intro s u s' h hnos hnou hline hbusy hrun
    obtain ⟨t, hstep, hrest⟩ := (ticks_succ_next_iff k s s').1 hrun
    obtain ⟨v, hv, hsame⟩ := step_sameButFault s u t h (by simpa using hline 0 k.succ_pos)
      (by simpa using hnos 0 k.succ_pos) (by simpa using hnou 0 k.succ_pos) (hbusy 0 s k.succ_pos rfl) hstep
    have hins := inputAt_of_step s t hstep
    have hinu := inputAt_of_step u v hv
    obtain ⟨u', hu', hend⟩ := ih t v s' hsame (fun j hj => (hins j).symm ▸ hnos (j + 1) (by omega))
      (fun j hj => (hinu j).symm ▸ hnou (j + 1) (by omega))
      (fun j hj => by rw [hins, hinu]; exact hline (j + 1) (by omega))
      (fun j w hj hw => hbusy (j + 1) w (by omega) ((ticks_succ_of_next j s t hstep).trans hw)) hrest
    exact ⟨u', (ticks_succ_of_next k u v hv).trans hu', hend⟩

end Sys2Proof.Machine
end

section
/-! The waiter: one tick of a wait phase, and how long a wait can last (41_waiter.md R101, R107). -/

namespace Sys2Proof.Machine

/-! ## One tick of a wait -/

/-- A phase that is left through `enter` comes to another phase. -/
theorem phaseSuccessor_ne_self (q : Phase) (hidle : q ≠ .idle) : phaseSuccessor q ≠ q := by
  cases q <;> simp_all [phaseSuccessor]

/-- A tick of a wait phase leaves it, or counts the timer, which it cannot do at 200 (41_waiter.md R101). -/
theorem step_of_wait (s t : State) (h : step s = .next t) (hr : s.input.rst = false) (hwait : phaseIsWait s.ph = true) :
    t.ph ≠ s.ph ∨ (s.tmr ≠ 200 ∧ t.ph = s.ph ∧ t.tmr = s.tmr + 1) := by
  obtain ⟨hidle, hgate, -, -⟩ := ne_of_phaseIsWait s.ph hwait
  obtain ⟨b, rfl⟩ := step_of_busy s t h hr hidle
  rw [withFault_ph, withFault_tmr]
  generalize hact : phaseAction Config.params s (elapse s) = u
  have hupd : PhaseUpdate s (elapse s) u := hact ▸ phaseAction_update s (elapse s)
  cases hupd with
  | idle hph => exact absurd hph hidle
  | held hph => exact absurd hph hgate
  | opened hph => exact absurd hph hgate
  | entered => exact .inl (phaseSuccessor_ne_self s.ph hidle)
  | counted _ _ hruns =>
    obtain ⟨-, -, hlast⟩ := hruns
    exact .inr ⟨hlast hwait, rfl, rfl⟩
  | stored hph => exact .inl (by simp [hph])
  | captured => exact .inl (by simpa using hidle.symm)
  | timedOut => exact .inl hidle.symm

/-! ## The length of a wait -/

theorem noResetFor_of_step (n : Nat) (s t : State) (hno : s.noResetFor (n + 1)) (h : step s = .next t) :
    t.noResetFor n := by
  intro j hj
  rw [inputAt_of_step s t h]
  exact hno (j + 1) (Nat.succ_lt_succ hj)

/-- A wait whose timer is `n` ticks before 200 is left within `n + 1` ticks: the tick at 200 cannot stay, and one before
leaves or comes one nearer. -/
theorem wait_left_within (n : Nat) (s : State) (hinv : s.Inv) (hwait : phaseIsWait s.ph = true) (htmr : s.tmr + n = 200)
    (hno : s.noResetFor (n + 1)) : ∃ k t, 1 ≤ k ∧ k ≤ n + 1 ∧ ticks k s = .next t ∧ t.ph ≠ s.ph := by
  induction n generalizing s with
  | zero =>
    obtain ⟨t, hstep⟩ := step_of_inRange s hinv.inRange
    rcases step_of_wait s t hstep (inputAt_zero s ▸ hno 0 Nat.one_pos) hwait with hleft | ⟨hlast, -⟩
    · exact ⟨1, t, le_rfl, le_rfl, ticks_succ_of_next 0 s t hstep, hleft⟩
    · exact absurd htmr hlast
  | succ n ih =>
    obtain ⟨u, hstep⟩ := step_of_inRange s hinv.inRange
    rcases step_of_wait s u hstep (inputAt_zero s ▸ hno 0 (Nat.succ_pos _)) hwait with hleft | ⟨-, hph, hcount⟩
    · exact ⟨1, u, le_rfl, by omega, ticks_succ_of_next 0 s u hstep, hleft⟩
    · obtain ⟨k, t, hpos, hk, hrun, hleft⟩ := ih u (everyStepKeepsInv s u hinv hstep) (hph ▸ hwait) (by omega)
        (noResetFor_of_step (n + 1) s u hno hstep)
      exact ⟨k + 1, t, by omega, by omega, (ticks_succ_of_next k s u hstep).trans hrun, hph ▸ hleft⟩

/-- Settles O53: at the entry of a wait the timer is 200 ticks before its end. -/
theorem waitEndsWithin201 : Obligations.WaitEndsWithin201 := by
  unfold Obligations.WaitEndsWithin201
  exact fun s hinv hwait htmr hno => wait_left_within 200 s hinv hwait (by omega) hno

/-! ## The instruction of a wait phase -/

theorem waitStep_of_target (n : Nat) (level : Bool) (f g : State → State) (s t : State) (h : s.input.lineIn = level) :
    waitStep n level f g s t = f t := if_pos h

theorem waitStep_of_timeout (n : Nat) (level : Bool) (f g : State → State) (s t : State) (h : s.input.lineIn ≠ level)
    (htmr : s.tmr = n) : waitStep n level f g s t = g t := (if_neg h).trans (if_pos htmr)

theorem waitStep_of_running (n : Nat) (level : Bool) (f g : State → State) (s t : State) (h : s.input.lineIn ≠ level)
    (htmr : s.tmr ≠ n) : waitStep n level f g s t = countTimer t := (if_neg h).trans (if_neg htmr)

/-- An instruction whose effect is the wait step, by the three cases of 41_waiter.md R101. -/
theorem execWith_of_waitStep (p : Config.Params) (i : Instr) (level : Bool) (f : State → State) (s : State)
    (hrange : s.rangeFault p = none)
    (heffect : instrEffect p i s (elapse s) = waitStep p.edgeTimeoutUs level f onTimeout s (elapse s)) :
    (s.input.lineIn = level → execWith p i s = .next (f (elapse s))) ∧
      (s.input.lineIn ≠ level → s.tmr = p.edgeTimeoutUs → execWith p i s = .next (complete .timeout (elapse s))) ∧
      (s.input.lineIn ≠ level → s.tmr ≠ p.edgeTimeoutUs → execWith p i s = .next (countTimer (elapse s))) := by
  rw [execWith_eq_tickTo, tickTo_of_range p s _ hrange, heffect]
  refine ⟨fun hline => ?_, fun hline htmr => ?_, fun hline htmr => ?_⟩
  · rw [waitStep_of_target _ _ _ _ _ _ hline]
  · rw [waitStep_of_timeout _ _ _ _ _ _ hline htmr, onTimeout]
  · rw [waitStep_of_running _ _ _ _ _ _ hline htmr]

/-- Settles O24: the effect of each of the four instructions is the wait step with its row's level and next phase; `exec` is
the case of the default parameters. -/
theorem waitPhasesStep : Obligations.WaitPhasesStep := by
  unfold Obligations.WaitPhasesStep
  intro s i target q hrow
  have heffect : ∀ p : Config.Params, instrEffect p i s (elapse s) =
      waitStep p.edgeTimeoutUs target (enter q) onTimeout s (elapse s) := by
    rcases hrow with ⟨rfl, rfl, rfl⟩ | ⟨rfl, rfl, rfl⟩ | ⟨rfl, rfl, rfl⟩ | ⟨rfl, rfl, rfl⟩ <;> exact fun _ => rfl
  refine ⟨fun h => ?_, fun p h => execWith_of_waitStep p i target (enter q) s h (heffect p)⟩
  rw [exec_eq_execWith]
  exact execWith_of_waitStep Config.params i target (enter q) s ((inRange_iff_rangeFault s).1 h) (heffect Config.params)

/-- Settles O27: BIT_LOW is the wait step for the low level, so with the line high only its two other cases are left. -/
theorem bitLowTimesOut : Obligations.BitLowTimesOut := by
  unfold Obligations.BitLowTimesOut
  intro s h hline
  have hhigh : s.input.lineIn ≠ false := by simp [hline]
  obtain ⟨-, htimeout, hcount⟩ :=
    execWith_of_waitStep Config.params .bitLow false (pulseEnd Config.params s) s ((inRange_iff_rangeFault s).1 h) rfl
  rw [exec_eq_execWith]
  exact ⟨htimeout hhigh, hcount hhigh⟩

end Sys2Proof.Machine
end

section
/-! The hold phases START_LOW and START_HIGH (42_handshake.md R110, R111). -/

namespace Sys2Proof.Machine

/-- An instruction whose effect is the hold step, by its two cases. -/
theorem execWith_of_holdStep (p : Config.Params) (i : Instr) (len : Nat) (q : Phase) (s : State)
    (hrange : s.rangeFault p = none) (heffect : instrEffect p i s (elapse s) = holdStep len q s (elapse s)) :
    (s.tmr = len - 1 → execWith p i s = .next (enter q (elapse s))) ∧
      (s.tmr ≠ len - 1 → execWith p i s = .next (countTimer (elapse s))) := by
  rw [execWith_eq_tickTo, tickTo_of_range p s _ hrange, heffect]
  exact ⟨fun htmr => congrArg _ (if_pos htmr), fun htmr => congrArg _ (if_neg htmr)⟩

theorem execWith_startLow (p : Config.Params) (s : State) (hrange : s.rangeFault p = none) :
    (s.tmr = p.startLowUs - 1 → execWith p .startLow s = .next (enter .startHigh (elapse s))) ∧
      (s.tmr ≠ p.startLowUs - 1 → execWith p .startLow s = .next (countTimer (elapse s))) :=
  execWith_of_holdStep p .startLow p.startLowUs .startHigh s hrange rfl

theorem execWith_startHigh (p : Config.Params) (s : State) (hrange : s.rangeFault p = none) :
    (s.tmr = p.startHighUs - 1 → execWith p .startHigh s = .next (enter .ackLow (elapse s))) ∧
      (s.tmr ≠ p.startHighUs - 1 → execWith p .startHigh s = .next (countTimer (elapse s))) :=
  execWith_of_holdStep p .startHigh p.startHighUs .ackLow s hrange rfl

/-- The block drives the line low in START_LOW (42_handshake.md R110). -/
theorem line_of_startLow (s : State) (h : s.ph = .startLow) : s.lineOe = true ∧ s.lineOut = false :=
  ⟨(lineOe_eq_true_iff s).2 (.inl h), (lineOut_eq_false_iff s).2 h⟩

/-- The block drives the line high in START_HIGH (42_handshake.md R111). -/
theorem line_of_startHigh (s : State) (h : s.ph = .startHigh) : s.lineOe = true ∧ s.lineOut = true :=
  ⟨(lineOe_eq_true_iff s).2 (.inr h), by simp [State.lineOut, h]⟩

/-- Settles O23: the effect of each of the two instructions is the hold step with its row's duration and next phase; `exec`
is the case of the default parameters. -/
theorem holdPhasesCount : Obligations.HoldPhasesCount := by
  unfold Obligations.HoldPhasesCount
  refine ⟨fun s h => ?_, fun p s h => ?_⟩
  · have hrange := (inRange_iff_rangeFault s).1 h
    obtain ⟨hlowEnd, hlowCount⟩ := execWith_startLow Config.params s hrange
    obtain ⟨hhighEnd, hhighCount⟩ := execWith_startHigh Config.params s hrange
    rw [exec_eq_execWith, exec_eq_execWith]
    exact ⟨hlowEnd, hlowCount, hhighEnd, hhighCount, line_of_startLow s, line_of_startHigh s⟩
  · obtain ⟨hlowEnd, hlowCount⟩ := execWith_startLow p s h
    obtain ⟨hhighEnd, hhighCount⟩ := execWith_startHigh p s h
    exact ⟨hlowEnd, hlowCount, hhighEnd, hhighCount⟩

end Sys2Proof.Machine
end

section
/-! BIT_LOW at the end of a pulse: the bit stored, and the frame completed (43_bit_decoder.md R121 to R125). -/

namespace Sys2Proof.Machine

/-- With the line low, BIT_LOW ends the pulse. -/
theorem execWith_bitLow_of_low (p : Config.Params) (s : State) (hrange : s.rangeFault p = none)
    (hline : s.input.lineIn = false) : execWith p .bitLow s = .next (pulseEnd p s (elapse s)) :=
  (execWith_of_waitStep p .bitLow false (pulseEnd p s) s hrange rfl).1 hline

/-! ## Bits 0 to 38 -/

/-- Below bit 39 the end of a pulse stores its bit. -/
theorem execWith_bitLow_stores (p : Config.Params) (s : State) (hrange : s.rangeFault p = none)
    (hline : s.input.lineIn = false) (hidx : s.bitIdx.toNat < 39) :
    execWith p .bitLow s = .next (storeBit (pulseBit p.bitThresholdUs s.tmr) (elapse s)) := by
  rw [execWith_bitLow_of_low p s hrange hline]
  rcases pulseEnd_cases p s (elapse s) with ⟨hlast, -⟩ | ⟨-, hstore⟩
  · omega
  · rw [hstore]

/-- Settles O25: the frame is `frameBitWrite` of the bit at `bit_idx`, whose cells `frameBitWrite_getLsbD` reads; the
defaults are an instance, their threshold 50 being the comparison with 51. -/
theorem bitLowStoresTheBit : Obligations.BitLowStoresTheBit := by
  unfold Obligations.BitLowStoresTheBit
  refine ⟨fun s h hline hidx => ?_, fun p s hrange hline hidx => ?_⟩
  · have hrange := (inRange_iff_rangeFault s).1 h
    rw [exec_eq_execWith]
    exact ⟨_, execWith_bitLow_stores Config.params s hrange hline hidx, fun j hj => frameBitWrite_getLsbD _ _ j _ hj⟩
  · exact ⟨_, execWith_bitLow_stores p s hrange hline hidx, fun j hj => frameBitWrite_getLsbD _ _ j _ hj⟩

/-! ## Bit 39 -/

/-- At bit 39 the end of a pulse completes the captured frame in the same tick. -/
theorem exec_bitLow_captures (s : State) (h : s.inRange) (hline : s.input.lineIn = false) (hidx : s.bitIdx.toNat = 39) :
    exec .bitLow s = .next (onFrame Config.params s.capturedFrame (elapse s)) := by
  rw [exec_eq_execWith, execWith_bitLow_of_low _ s ((inRange_iff_rangeFault s).1 h) hline]
  rcases pulseEnd_cases Config.params s (elapse s) with ⟨-, hframe⟩ | ⟨hne, -⟩
  · rw [hframe, State.capturedFrame]
  · exact absurd hidx hne

/-- The instruction a frame decodes to is the capture tick of that frame. -/
theorem exec_decodeFrame (f : Frame) (s : State) (h : s.inRange) :
    exec (decodeFrame f) s = .next (onFrame Config.params f (elapse s)) := by
  rw [exec_of_inRange _ s h, decodeFrame, instrEffect, encodeFrame_fields]

/-- The captured frame cell by cell: the bit just decoded in cell 0, the bits stored before in the others. -/
theorem capturedFrame_getLsbD (s : State) (j : Nat) (hj : j < 40) :
    s.capturedFrame.getLsbD j = if j = 0 then decide (51 ≤ s.tmr + 1) else s.frame.getLsbD j :=
  frameBitWrite_getLsbD s.frame 39 j _ hj

/-- Settles O26: a frame with those cells is the captured frame, and both instructions are its capture tick. -/
theorem bitLowCapturesTheFrame : Obligations.BitLowCapturesTheFrame := by
  unfold Obligations.BitLowCapturesTheFrame
  intro s f i h hline hidx hcells hdecode
  have hframe : f = s.capturedFrame :=
    BitVec.eq_of_getLsbD_eq fun j hj => (hcells j hj).trans (capturedFrame_getLsbD s j hj).symm
  cases hdecode
  rw [exec_bitLow_captures s h hline hidx, exec_decodeFrame f s h, hframe]

end Sys2Proof.Machine
end

section
/-! The frame by its fields, and the capture tick of a frame that passes both checks (30_encoding.md R71, 44_validator.md
R141 to R145). -/

namespace Sys2Proof.Machine

/-! ## The fields of a frame (44_validator.md R142, R143) -/

section
variable (f : Frame)

theorem humRaw_eq_extractLsb' : humRaw f = f.extractLsb' 24 16 := BitVec.extractLsb'_append_extractLsb'_eq_extractLsb' rfl

theorem tempNeg_eq_getLsbD : tempNeg f = f.getLsbD 23 := BitVec.getLsbD_extractLsb' 16 8 f 7

/-- The low seven bits of byte 2 are frame bits 22 to 16. -/
theorem tempMag_eq_extractLsb' : tempMag f = f.extractLsb' 8 15 := by
  have hlow : (frameByte f 2).extractLsb' 0 7 = f.extractLsb' 16 7 := by
    refine extractLsb'_eq_of_bits _ _ fun i hi => ?_
    simp [frameByte, hi, show i < 8 by omega]
  rw [tempMag, hlow]
  exact BitVec.extractLsb'_append_extractLsb'_eq_extractLsb' rfl

end

section
variable (hum : BitVec 16) (neg : Bool) (mag : BitVec 15) (check : Byte)

@[simp] theorem humRaw_encodeFrame : humRaw (encodeFrame hum neg mag check) = hum := by
  rw [humRaw_eq_extractLsb', hum_encodeFrame]

@[simp] theorem tempNeg_encodeFrame : tempNeg (encodeFrame hum neg mag check) = neg := by
  rw [tempNeg_eq_getLsbD, neg_encodeFrame]

@[simp] theorem tempMag_encodeFrame : tempMag (encodeFrame hum neg mag check) = mag := by
  rw [tempMag_eq_extractLsb', mag_encodeFrame]

@[simp] theorem frameByte_four_encodeFrame : frameByte (encodeFrame hum neg mag check) 4 = check :=
  check_encodeFrame hum neg mag check

end

/-! ## The checks by the fields -/

section
variable (f : Frame)

/-- Bytes 0 and 1 are the two halves of the humidity field. -/
theorem humBytes_toNat :
    (frameByte f 0).toNat = (humRaw f).toNat / 256 ∧ (frameByte f 1).toNat = (humRaw f).toNat % 256 := by
  rw [humRaw_eq_extractLsb']
  simp only [frameByte, BitVec.extractLsb'_toNat, Nat.shiftRight_eq_div_pow]
  omega

/-- Byte 2 is the sign flag above the high part of the magnitude, byte 3 the low part. -/
theorem tempBytes_toNat :
    (frameByte f 2).toNat = (tempNeg f).toNat * 128 + (tempMag f).toNat / 256 ∧
      (frameByte f 3).toNat = (tempMag f).toNat % 256 := by
  rw [tempMag_eq_extractLsb', tempNeg_eq_getLsbD, BitVec.getLsbD, Nat.toNat_testBit]
  simp only [frameByte, BitVec.extractLsb'_toNat, Nat.shiftRight_eq_div_pow]
  omega

/-- The checksum of a frame, its four data bytes written by the fields (44_validator.md R141). -/
theorem checksumOk_iff_fields :
    checksumOk f = true ↔
      ((humRaw f).toNat / 256 + (humRaw f).toNat % 256 + ((tempNeg f).toNat * 128 + (tempMag f).toNat / 256) +
        (tempMag f).toNat % 256) % 256 = (frameByte f 4).toNat := by
  obtain ⟨hb0, hb1⟩ := humBytes_toNat f
  obtain ⟨hb2, hb3⟩ := tempBytes_toNat f
  rw [checksumOk, decide_eq_true_iff, hb0, hb1, hb2, hb3]

/-- The range check at the defaults, both ends inside (44_validator.md R144). -/
theorem rangeOk_iff_fields :
    rangeOk Config.params f = true ↔
      (humRaw f).toNat ≤ 1000 ∧ (tempNeg f = false → (tempMag f).toNat ≤ 800) ∧
        (tempNeg f = true → (tempMag f).toNat ≤ 400) := by
  rw [rangeOk, Bool.and_eq_true, decide_eq_true_iff, params_humMaxX10, params_tempMinMagX10, params_tempMaxX10]
  cases tempNeg f <;> simp

end

/-! ## The capture tick -/

/-- The FRAME row is the capture tick of the frame with its fields. -/
theorem exec_frame_of_inRange (h : BitVec 16) (n : Bool) (m : BitVec 15) (c : Byte) (s : State) (hrange : s.inRange) :
    exec (.frame h n m c) s = .next (onFrame Config.params (encodeFrame h n m c) (elapse s)) := by
  rw [exec_of_inRange _ s hrange, instrEffect]

/-- A frame that passes both checks: the capture is recorded and the Reading written (44_validator.md R140, R145). -/
theorem onFrame_of_ok (p : Config.Params) (f : Frame) (t : State) (hsum : checksumOk f = true)
    (hrange : rangeOk p f = true) :
    onFrame p f t =
      { t with
        hasRead := true, paceCnt := p.paceMax, frame := f, tmr := 0, humX10 := humRaw f, tempX10 := tempTenths f,
        result := .ok, done := true, ph := .idle } := by
  rcases onFrame_cases p f t with ⟨hbad, -⟩ | ⟨-, hbad, -⟩ | ⟨-, -, hok⟩
  · simp [hsum] at hbad
  · simp [hrange] at hbad
  · exact hok

/-- Settles O30: the fields make both checks pass, and the temperature is `tempTenths` of the frame. -/
theorem frameOk : Obligations.FrameOk := by
  unfold Obligations.FrameOk
  intro h n m c s hrange hsum hhum hpos hneg
  have hsumOk : checksumOk (encodeFrame h n m c) = true := by simpa [checksumOk_iff_fields] using hsum
  have hrangeOk : rangeOk Config.params (encodeFrame h n m c) = true := by
    simpa [rangeOk_iff_fields] using ⟨hhum, hpos, hneg⟩
  refine ⟨tempTenths (encodeFrame h n m c), ?_, ?_⟩
  · rw [exec_frame_of_inRange h n m c s hrange, onFrame_of_ok _ _ _ hsumOk hrangeOk, params_paceMax, humRaw_encodeFrame]
  · rw [tempTenths_toInt, tempNeg_encodeFrame, tempMag_encodeFrame]

end Sys2Proof.Machine
end

section
/-! The pacing gate: what a tick does to `pace_cnt` and `has_read`, a READ held in PACE_WAIT, and the interval after a
capture (45_pacing.md R161 to R167). -/

namespace Sys2Proof.Machine

/-! ## One tick of a held READ (45_pacing.md R162) -/

/-- Settles O9: the countdown is a subtraction that stops at 0, and the other elements are copied. -/
theorem elapseOnlyCountsDown : Obligations.ElapseOnlyCountsDown := by
  unfold Obligations.ElapseOnlyCountsDown
  exact fun s => ⟨countdown_eq s.paceCnt, rfl, rfl, rfl⟩

theorem exec_paceWait_of_zero (s : State) (h : s.inRange) (h0 : s.paceCnt = 0) :
    exec .paceWait s = .next (openGate (elapse s)) := by
  rw [exec_of_inRange _ s h, instrEffect]
  rcases onPaceWait_cases s (elapse s) with ⟨-, he⟩ | ⟨hne, -⟩
  · rw [he]
  · exact absurd h0 hne

theorem exec_paceWait_of_ne_zero (s : State) (h : s.inRange) (hne : s.paceCnt ≠ 0) :
    exec .paceWait s = .next (elapse s) := by
  rw [exec_of_inRange _ s h, instrEffect]
  rcases onPaceWait_cases s (elapse s) with ⟨h0, -⟩ | ⟨-, he⟩
  · exact absurd h0 hne
  · rw [he]

/-- Settles O21: the two cases of the gate are `openGate` and part 1 alone. -/
theorem paceWaitHoldsUntilZero : Obligations.PaceWaitHoldsUntilZero := by
  unfold Obligations.PaceWaitHoldsUntilZero
  intro s h
  refine ⟨exec_paceWait_of_zero s h, exec_paceWait_of_ne_zero s h, fun hph => ?_⟩
  simp [State.lineOe, State.lineOut, State.busy, hph]

/-- Settles O22: in each row of R14 PACE_WAIT takes the case that the row's own instruction is. -/
theorem gateStatesActOnAHeldRead : Obligations.GateStatesActOnAHeldRead := by
  unfold Obligations.GateStatesActOnAHeldRead
  intro s h
  have hnever : exec .neverRead s = .next (openGate (elapse s)) := exec_of_inRange .neverRead s h
  have hready : exec .ready s = .next (openGate (elapse s)) := exec_of_inRange .ready s h
  have hwait : exec .mustWait s = .next (elapse s) := exec_of_inRange .mustWait s h
  refine ⟨hnever, hready, hwait, fun hpair => ?_⟩
  rcases paceState_cases s with ⟨hread, hs⟩ | ⟨-, h0, hs⟩ | ⟨-, hne, hs⟩ <;> rw [hs]
  · exact (exec_paceWait_of_zero s h (hpair hread)).trans hnever.symm
  · exact (exec_paceWait_of_zero s h h0).trans hready.symm
  · exact (exec_paceWait_of_ne_zero s h hne).trans hwait.symm

/-! ## The gate in a tick (45_pacing.md R161, R163, R165) -/

/-- The end of a frame records the capture, whatever the checks say (44_validator.md R140). -/
theorem onFrame_gate (p : Config.Params) (f : Frame) (t : State) :
    (onFrame p f t).paceCnt = p.paceMax ∧ (onFrame p f t).hasRead = true := by
  rcases onFrame_forms p f t with ⟨c, -, h⟩ | ⟨-, -, h⟩ <;> simp [h]

/-- Part 2 of a capture tick completes the captured frame (43_bit_decoder.md R124). -/
theorem phaseAction_of_captures (s t : State) (h : s.captures) :
    phaseAction Config.params s t = onFrame Config.params s.capturedFrame t := by
  obtain ⟨-, hph, hidx, hline⟩ := h
  have hact : phaseAction Config.params s t = pulseEnd Config.params s t := by
    rw [phaseAction, hph]
    exact waitStep_of_target _ _ _ _ s t hline
  rcases pulseEnd_cases Config.params s t with ⟨-, hframe⟩ | ⟨hne, -⟩
  · rw [hact, hframe, State.capturedFrame]
  · simp [hidx] at hne

/-- Outside a capture tick part 2 leaves the gate to part 1. -/
theorem PhaseUpdate.gate {s t t' : State} (h : PhaseUpdate s t t') (hr : s.input.rst = false) (hcap : ¬ s.captures) :
    t'.paceCnt = t.paceCnt ∧ t'.hasRead = t.hasRead := by
  cases h
  case captured hph hline hidx => exact absurd ⟨hr, hph, hidx, hline⟩ hcap
  all_goals exact ⟨rfl, rfl⟩

theorem not_captures_of_idle (s : State) (h : s.ph = .idle) : ¬ s.captures := by
  rintro ⟨-, hbit, -⟩
  simp [h] at hbit

/-- Settles O39, by what is accepted in the tick: without a command part 2 decides, and a command is accepted in IDLE, which
is no capture tick. -/
theorem paceCounterEveryTick : Obligations.PaceCounterEveryTick := by
  unfold Obligations.PaceCounterEveryTick
  intro s t _ h hr
  have hcount : (elapse s).paceCnt = s.paceCnt - 1 := countdown_eq s.paceCnt
  rcases step_cases_accept s t h hr with ⟨hinit, -, b, rfl⟩ | ⟨hinit, rfl⟩ | ⟨hread, -, rfl⟩ | ⟨hread, -, rfl⟩
  · refine ⟨fun hcap => ?_, fun hi => absurd hi hinit, fun hcap _ => ?_⟩
    · rw [phaseAction_of_captures s _ hcap]
      exact onFrame_gate Config.params s.capturedFrame (elapse s)
    · obtain ⟨hpace, hread⟩ := (phaseAction_update s (elapse s)).gate hr hcap
      exact ⟨hpace.trans hcount, hread⟩
  · have hcap := not_captures_of_idle s (ph_of_acceptsInit s hinit)
    exact ⟨fun hc => absurd hc hcap, fun _ => ⟨rfl, rfl⟩, fun _ hi => absurd hinit hi⟩
  all_goals
    have hcap := not_captures_of_idle s (ph_of_acceptsRead s hread)
    have hinit : ¬ s.acceptsInit := fun hi => not_acceptsRead_of_acceptsInit s hi hread
    exact ⟨fun hc => absurd hc hcap, fun hi => absurd hi hinit, fun _ _ => ⟨hcount, rfl⟩⟩

/-! ## A Timeout (45_pacing.md R164) -/

/-- The capture tick does not end in Timeout (44_validator.md R140). -/
theorem onFrame_result_ne_timeout (p : Config.Params) (f : Frame) (t : State) : (onFrame p f t).result ≠ .timeout := by
  rcases onFrame_cases p f t with ⟨-, h⟩ | ⟨-, -, h⟩ | ⟨-, -, h⟩ <;> rw [h] <;> exact nofun

/-- Part 2 brings a busy block to IDLE at the end of a frame, or where a wait has run out without its level
(60_exceptions.md R175). -/
theorem phaseAction_end (s t : State) (hph : t.ph = s.ph) (hbusy : s.ph ≠ .idle)
    (hidle : (phaseAction Config.params s t).ph = .idle) :
    phaseAction Config.params s t = onFrame Config.params s.capturedFrame t ∨
      ∃ level, waitTarget s.ph = some level ∧ s.input.lineIn ≠ level ∧ s.tmr = 200 ∧
        phaseAction Config.params s t = complete .timeout t := by
  rcases phaseAction_cases s t with ⟨hp, -⟩ | ⟨-, -, he⟩ | ⟨-, -, he⟩ | ⟨-, -, he⟩ | ⟨-, -, he⟩ | ⟨-, -, he⟩ |
    ⟨-, -, he⟩ | ⟨-, -, he⟩ | ⟨-, -, he⟩ | ⟨-, -, he⟩ | ⟨-, -, he⟩ | ⟨-, -, -, he⟩ | ⟨-, -, -, he⟩ | hout |
    ⟨level, -, -, -, he⟩
  · exact absurd hp hbusy
  · simp [he] at hidle
  · simp [he, hph, hbusy] at hidle
  · simp [he] at hidle
  · simp [he, hph, hbusy] at hidle
  · simp [he] at hidle
  · simp [he, hph, hbusy] at hidle
  · simp [he] at hidle
  · simp [he] at hidle
  · simp [he] at hidle
  · simp [he] at hidle
  · simp [he] at hidle
  · exact .inl he
  · exact .inr hout
  · simp [he, hph, hbusy] at hidle

theorem not_captures_of_waiting (s : State) (level : Bool) (hw : waitTarget s.ph = some level)
    (hline : s.input.lineIn ≠ level) : ¬ s.captures := by
  rintro ⟨-, hph, -, hlow⟩
  rw [hph] at hw
  cases hw
  exact hline hlow

/-- Settles O44: the READ ends in part 2, not at the end of a frame, so where a wait has run out. -/
theorem timeoutNeverLoadsTheGate : Obligations.TimeoutNeverLoadsTheGate := by
  unfold Obligations.TimeoutNeverLoadsTheGate
  intro s t h hr hbusy hidle hresult
  obtain ⟨b, rfl⟩ := step_of_busy s t h hr hbusy
  rcases phaseAction_end s (elapse s) rfl hbusy hidle with he | ⟨level, hw, hline, htmr, he⟩ <;> rw [he] at hresult ⊢
  · exact absurd hresult (onFrame_result_ne_timeout _ _ _)
  · exact ⟨not_captures_of_waiting s level hw hline, htmr, phaseIsWait_of_waitTarget _ _ hw, rfl,
      countdown_eq s.paceCnt, rfl, rfl⟩

/-! ## The interval after a capture (45_pacing.md R166, R167) -/

/-- Settles O57: the capture loads 1999999, and each later tick takes 1 from it. -/
theorem counterIsIntervalMinusElapsed : Obligations.CounterIsIntervalMinusElapsed := by
  unfold Obligations.CounterIsIntervalMinusElapsed
  intro s t u k hinv hcap hstep hquiet hrun
  induction k generalizing u with
  | zero =>
    cases hrun
    obtain ⟨hload, -⟩ := paceCounterEveryTick s t hinv hstep hcap.1
    exact (hload hcap).1
  | succ k ih =>
    obtain ⟨v, hprev, hlast⟩ := (ticks_succ_last_iff k t u).1 hrun
    have hv : v.Inv := ticks_keeps State.Inv everyStepKeepsInv k t v (everyStepKeepsInv s t hinv hstep) hprev
    obtain ⟨hr, hinit, hno⟩ := hquiet k v k.lt_succ_self hprev
    obtain ⟨-, -, hcount⟩ := paceCounterEveryTick v u hv hlast hr
    obtain ⟨hdown, -⟩ := hcount hno hinit
    have hbefore := ih v (fun j w hj => hquiet j w (by omega)) hprev
    omega

/-- While the counter is not 0 the block is in IDLE or PACE_WAIT (10_state.md R33 (j)). -/
theorem ph_of_paceCnt_ne_zero (s : State) (h : s.Inv) (hne : s.paceCnt ≠ 0) : s.ph = .idle ∨ s.ph = .paceWait := by
  by_contra hph
  obtain ⟨hidle, hgate⟩ := not_or.1 hph
  exact hne (h.gateOpen hidle hgate)

/-- Nor does the tick that counts it down to 0 leave them: the gate reads the counter of S(t). -/
theorem ph_of_step_of_paceCnt_ne_zero (s t : State) (h : s.Inv) (hne : s.paceCnt ≠ 0) (hstep : step s = .next t) :
    t.ph = .idle ∨ t.ph = .paceWait := by
  rcases phaseTransitionsAreTheTables s t h hstep with ⟨-, hidle⟩ | ⟨-, hrow⟩
  · exact .inl hidle
  · rw [State.mayEnter] at hrow
    rcases ph_of_paceCnt_ne_zero s h hne with hph | hph
    · have hnext : (t.ph = .paceWait ∧ s.acceptsRead ∧ s.initialized = true) ∨
          (t.ph = .idle ∧ ¬ (s.acceptsRead ∧ s.initialized = true)) := by
        simpa [hph, waitTarget] using hrow
      exact hnext.symm.imp And.left And.left
    · exact .inr (by simpa [hph, hne, waitTarget] using hrow)

/-- From a capture tick on the block is in IDLE or PACE_WAIT, so that no other capture comes within the interval. -/
theorem ph_within_interval (s t u : State) (k : Nat) (hinv : s.Inv) (hcap : s.captures) (hstep : step s = .next t)
    (hquiet : ∀ j v, j < k → ticks j t = .next v → v.input.rst = false ∧ ¬ v.acceptsInit) (hk : k < 2000000)
    (hrun : ticks k t = .next u) : u.ph = .idle ∨ u.ph = .paceWait := by
  have ht : t.Inv := everyStepKeepsInv s t hinv hstep
  induction k using Nat.strong_induction_on generalizing u with
  | _ k ih =>
    have hno : ∀ j v, j < k → ticks j t = .next v → v.input.rst = false ∧ ¬ v.acceptsInit ∧ ¬ v.captures := by
      intro j v hj hv
      obtain ⟨hr, hinit⟩ := hquiet j v hj hv
      refine ⟨hr, hinit, fun ⟨_, hbit, _⟩ => ?_⟩
      simpa [hbit] using ih j hj v (fun i w hi => hquiet i w (by omega)) (by omega) hv
    cases k with
    | zero =>
      have hpace := counterIsIntervalMinusElapsed s t u 0 hinv hcap hstep hno hrun
      cases hrun
      exact ph_of_paceCnt_ne_zero t ht (by omega)
    | succ k =>
      obtain ⟨v, hprev, hlast⟩ := (ticks_succ_last_iff k t u).1 hrun
      have hpace := counterIsIntervalMinusElapsed s t v k hinv hcap hstep (fun j w hj => hno j w (by omega)) hprev
      exact ph_of_step_of_paceCnt_ne_zero v u (ticks_keeps State.Inv everyStepKeepsInv k t v ht hprev) (by omega) hlast

/-- Settles O58: neither IDLE nor PACE_WAIT drives the line. -/
theorem noStartPulseWithinTheInterval : Obligations.NoStartPulseWithinTheInterval := by
  unfold Obligations.NoStartPulseWithinTheInterval
  intro s t u k hinv hcap hstep hquiet hk hrun
  have hph := ph_within_interval s t u k hinv hcap hstep hquiet hk hrun
  exact ⟨hph, by rcases hph with h | h <;> simp [State.lineOe, h]⟩

end Sys2Proof.Machine
end

section
/-! The ways a READ ends: the five completion rows, the capture tick of a frame that fails a check, and the block before INIT
(60_exceptions.md R175 to R181, R188, 44_validator.md R140 to R145). -/

namespace Sys2Proof.Machine

/-! ## Every instruction answers (60_exceptions.md R175) -/

/-- Settles O12: an instruction is one tick with its effect, and in range every tick is taken. -/
theorem everyInstructionCompletes : Obligations.EveryInstructionCompletes := by
  unfold Obligations.EveryInstructionCompletes
  exact fun i s h => ⟨_, exec_of_inRange i s h⟩

/-! ## The completion rows (60_exceptions.md R175 to R179) -/

/-- The ChecksumError row for any parameters: the load of the gate is the interval less one tick (45_pacing.md R163). -/
theorem execWith_checksumError (p : Config.Params) (s : State) (h : s.rangeFault p = none) :
    execWith p .checksumError s = .next (complete .checksumError (recordCapture p (elapse s))) := by
  rw [execWith_eq_tickTo, tickTo_of_range p s _ h, instrEffect, onChecksumError]

/-- Settles O31: each row's effect on part 1 is `complete`, after `recordCapture` and `writeReading` where the row has
them. -/
theorem completionRows : Obligations.CompletionRows := by
  unfold Obligations.CompletionRows
  refine ⟨fun s h => ⟨?_, ?_, ?_, ?_, ?_⟩, execWith_checksumError⟩
  · exact exec_of_inRange .notInitialized s h
  · exact exec_of_inRange .timeout s h
  · exact exec_of_inRange .checksumError s h
  · exact exec_of_inRange .invalidData s h
  · exact exec_of_inRange .ok s h

/-! ## A frame that fails a check (44_validator.md R141, R144) -/

/-- A wrong checksum: the capture is recorded, and the Reading is left (60_exceptions.md R178). -/
theorem onFrame_of_checksum_error (p : Config.Params) (f : Frame) (t : State) (hsum : checksumOk f = false) :
    onFrame p f t =
      { t with
        hasRead := true, paceCnt := p.paceMax, frame := f, tmr := 0, result := .checksumError, done := true,
        ph := .idle } :=
  if_pos hsum

/-- A right checksum with a value out of range: the capture is recorded, and the Reading is left (60_exceptions.md R179). -/
theorem onFrame_of_invalid_data (p : Config.Params) (f : Frame) (t : State) (hsum : checksumOk f = true)
    (hrange : rangeOk p f = false) :
    onFrame p f t =
      { t with
        hasRead := true, paceCnt := p.paceMax, frame := f, tmr := 0, result := .invalidData, done := true,
        ph := .idle } := by
  rcases onFrame_cases p f t with ⟨hbad, -⟩ | ⟨-, -, hinvalid⟩ | ⟨-, hok, -⟩
  · simp [hsum] at hbad
  · exact hinvalid
  · simp [hrange] at hok

/-- Settles O28: the bytes of the fields fail the checksum. -/
theorem frameChecksumError : Obligations.FrameChecksumError := by
  unfold Obligations.FrameChecksumError
  intro h n m c s hrange hsum
  have hbad : checksumOk (encodeFrame h n m c) = false := by
    rw [← Bool.not_eq_true, checksumOk_iff_fields]
    simpa using hsum
  rw [exec_frame_of_inRange h n m c s hrange, onFrame_of_checksum_error _ _ _ hbad, params_paceMax]

/-- Settles O29: the bytes of the fields pass the checksum, and a field out of its bound fails the range check. -/
theorem frameInvalidData : Obligations.FrameInvalidData := by
  unfold Obligations.FrameInvalidData
  intro h n m c s hrange hsum hout
  have hsumOk : checksumOk (encodeFrame h n m c) = true := by simpa [checksumOk_iff_fields] using hsum
  have hbad : rangeOk Config.params (encodeFrame h n m c) = false := by
    rw [← Bool.not_eq_true, rangeOk_iff_fields, humRaw_encodeFrame, tempNeg_encodeFrame, tempMag_encodeFrame]
    rintro ⟨hhum, hpos, hneg⟩
    rcases hout with hlarge | ⟨hsign, hlarge⟩ | ⟨hsign, hlarge⟩
    · exact absurd hhum hlarge.not_ge
    · exact absurd (hpos hsign) hlarge.not_ge
    · exact absurd (hneg hsign) hlarge.not_ge
  rw [exec_frame_of_inRange h n m c s hrange, onFrame_of_invalid_data _ _ _ hsumOk hbad, params_paceMax]

/-! ## Uninitialized mode (60_exceptions.md R188) -/

/-- Nothing is asked of an initialized block. -/
theorem uninitClean_of_initialized (s : State) (h : s.initialized = true) : s.UninitClean := by
  constructor <;> simp [h]

namespace State.UninitClean

variable {t : State}

theorem withFault (h : t.UninitClean) (b : Bool) : (t.withFault b).UninitClean := { h with }

/-- The countdown leaves the open gate at 0. -/
theorem elapse (h : t.UninitClean) : (elapse t).UninitClean :=
  { h with
    gate := fun hmode => by
      obtain ⟨hread, hpace⟩ := h.gate hmode
      exact ⟨hread, by simp [hpace]⟩ }

/-- A READ before INIT records its own failure alone (60_exceptions.md R176). -/
theorem completeNotInitialized (h : t.UninitClean) : (complete .notInitialized t).UninitClean :=
  { h with
    sequencer := fun hmode => ⟨rfl, (h.sequencer hmode).2⟩
    outcome := fun _ => .inr ⟨rfl, rfl⟩ }

/-- Parts 1 and 2: an Uninitialized block is in IDLE, where part 2 does nothing, and no phase leaves the mode. -/
theorem phaseAction {s : State} (h : s.UninitClean) : (phaseAction Config.params s (Machine.elapse s)).UninitClean := by
  cases hmode : s.initialized with
  | true => exact uninitClean_of_initialized _ (by simp [hmode])
  | false =>
    obtain ⟨hidle, -⟩ := h.sequencer hmode
    rw [phaseAction_idle _ _ _ hidle]
    exact h.elapse

end State.UninitClean

/-- Settles O50, by what is accepted in the tick: INIT leaves the mode, and a READ in it is recorded as NotInitialized. -/
theorem everyStepKeepsUninitClean : Obligations.EveryStepKeepsUninitClean := by
  unfold Obligations.EveryStepKeepsUninitClean
  intro s t h hstep
  rcases step_cases s t hstep with ⟨-, rfl⟩ | ⟨hr, -⟩
  · exact { uninitClean_reset with }
  rcases step_cases_accept s t hstep hr with ⟨-, -, b, rfl⟩ | ⟨-, rfl⟩ | ⟨-, hmode, rfl⟩ | ⟨-, -, rfl⟩
  · exact h.phaseAction.withFault b
  · exact uninitClean_of_initialized _ rfl
  · exact uninitClean_of_initialized _ hmode
  · exact h.elapse.completeNotInitialized

end Sys2Proof.Machine
end

section
/-! Reset, and what a run of the block always keeps: an OK is a valid frame's Reading (70_reset_and_hazards.md R200, R207,
R209). -/

namespace Sys2Proof.Machine

/-! ## Reset (R200) -/

/-- Settles O10: a tick with reset is `resetTick`, whatever else the state and the inputs hold. -/
theorem resetBeatsEverything : Obligations.ResetBeatsEverything := by
  unfold Obligations.ResetBeatsEverything
  exact step_of_rst

/-! ## An OK is valid (R207, R209) -/

theorem okIsValid_of_result_ne_ok (s : State) (h : s.result ≠ .ok) : s.OkIsValid := fun _ hok => absurd hok h

/-- Nothing is asked of a busy block: `done` is 0 in it (10_state.md R33 (e)). -/
theorem State.Inv.okIsValid_of_busy {s : State} (h : s.Inv) (hbusy : s.ph ≠ .idle) : s.OkIsValid :=
  okIsValid_of_not_done s (h.busyMode hbusy).2

/-- The end of a frame shows OK only over a frame that passes both checks, with its Reading (44_validator.md R140, R145). -/
theorem okIsValid_onFrame (f : Frame) (t : State) : (onFrame Config.params f t).OkIsValid := by
  rcases onFrame_forms Config.params f t with ⟨c, hc, he⟩ | ⟨hsum, hrange, he⟩ <;> rw [he]
  · exact okIsValid_of_result_ne_ok _ hc
  · exact fun _ _ => ⟨hsum, hrange, rfl, rfl⟩

/-- Parts 1 and 2: IDLE keeps the record of the last READ, a phase that goes on has `done` at 0, and a READ that ends shows
OK at the end of a frame alone. -/
theorem PhaseUpdate.okIsValid {s t : State} (hupd : PhaseUpdate s (elapse s) t) (hinv : s.Inv) (h : s.OkIsValid) :
    t.OkIsValid := by
  have hnext : t.Inv := hupd.inv hinv
  cases hupd with
  | idle => exact h
  | held hph => exact hnext.okIsValid_of_busy (by simp [hph])
  | counted hidle => exact hnext.okIsValid_of_busy hidle
  | opened | stored => exact hnext.okIsValid_of_busy nofun
  | entered hidle hgate hbit => exact hnext.okIsValid_of_busy (phaseSuccessor_ne_idle s.ph hidle hgate hbit)
  | captured => exact okIsValid_onFrame _ _
  | timedOut => exact okIsValid_of_result_ne_ok _ nofun

/-- Settles O51: reset and an accepted READ clear `done`, INIT leaves the record of the last READ, and part 2 goes by its
update. -/
theorem everyStepKeepsOkIsValid : Obligations.EveryStepKeepsOkIsValid := by
  unfold Obligations.EveryStepKeepsOkIsValid
  intro s t hinv h hstep
  rcases step_cases s t hstep with ⟨-, rfl⟩ | ⟨hr, -⟩
  · exact okIsValid_of_not_done _ rfl
  rcases step_cases_accept s t hstep hr with ⟨-, -, b, rfl⟩ | ⟨-, rfl⟩ | ⟨-, -, rfl⟩ | ⟨-, -, rfl⟩
  · exact (phaseAction_update s (elapse s)).okIsValid hinv h
  · exact h
  · exact okIsValid_of_not_done _ rfl
  · exact okIsValid_of_result_ne_ok _ nofun

end Sys2Proof.Machine
end

section
/-! How long a READ takes: at most `State.ticksLeft` more ticks and at least `State.minTicksLeft`, whatever the line and the
host do (70_reset_and_hazards.md R212, R213). -/

namespace Sys2Proof.Machine

/-! ## The acceptance of a READ (40_commands.md R84) -/

theorem step_of_acceptsRead (s t : State) (h : step s = .next t) (hread : s.acceptsRead) (hmode : s.initialized = true) :
    t = acceptRead (elapse s) := by
  have ⟨⟨hr, _⟩, _⟩ := hread
  rcases step_cases_accept s t h hr with ⟨-, hno, -⟩ | ⟨hinit, -⟩ | ⟨-, -, ht⟩ | ⟨-, hno, -⟩
  · exact absurd hread hno
  · exact absurd hread (not_acceptsRead_of_acceptsInit s hinit)
  · exact ht
  · simp [hmode] at hno

/-! ## The longest a READ can take (R213) -/

@[simp] theorem ticksLeft_withFault (s : State) (b : Bool) : (s.withFault b).ticksLeft = s.ticksLeft := rfl

@[simp] theorem ticksLeft_of_idle (s : State) (h : s.ph = .idle) : s.ticksLeft = 0 := by
  simp [State.ticksLeft, h]

/-- No index of a bit wraps to 0 at the next one (10_state.md R17, R33 (d)). -/
theorem toNat_bitIdx_succ (i : BitVec 6) (h : i.toNat ≤ 39) : (i + 1).toNat = i.toNat + 1 := by
  change (i + 1#6).toNat = _
  bv_omega

/-- The ticks a hold or wait phase lasts at most (42_handshake.md R110, R111, 41_waiter.md R107). -/
def phaseLength : Phase → Nat
  | .startLow => 18000
  | .startHigh => 30
  | .ackLow | .ackHigh | .dataLow | .bitHigh | .bitLow => 201
  | .idle | .paceWait => 0

/-- In a hold or wait phase this tick is still to come (10_state.md R33 (f)). -/
theorem State.Inv.tmr_lt_phaseLength {s : State} (h : s.Inv) (hidle : s.ph ≠ .idle) (hgate : s.ph ≠ .paceWait) :
    s.tmr < phaseLength s.ph := by
  have hlow := h.timerLow
  have hhigh := h.timerHigh
  have hwait := h.timerWait
  cases hph : s.ph <;> simp only [hph, phaseIsWait, phaseLength, reduceCtorEq, forall_const] at *
  case idle | paceWait => contradiction
  all_goals omega

theorem ticksLeft_pos (s : State) (h : s.Inv) (hbusy : s.ph ≠ .idle) : 0 < s.ticksLeft := by
  have htmr := h.tmr_lt_phaseLength hbusy
  cases hph : s.ph <;>
    simp only [hph, phaseLength, State.ticksLeft, ne_eq, reduceCtorEq, not_false_eq_true, forall_const] at *
  case idle => contradiction
  all_goals omega

/-- The next phase begins with fewer ticks ahead than the last tick of this phase. -/
theorem ticksLeft_enter (s : State) (h : s.Inv) (hidle : s.ph ≠ .idle) (hgate : s.ph ≠ .paceWait)
    (hbit : s.ph ≠ .bitLow) : (enter (phaseSuccessor s.ph) (elapse s)).ticksLeft < s.ticksLeft := by
  have htmr := h.tmr_lt_phaseLength hidle hgate
  have hidx := h.bitBound
  cases hph : s.ph <;>
    simp only [hph, phaseLength, phaseSuccessor, State.ticksLeft, enter_ph, enter_tmr, enter_bitIdx, elapse_bitIdx] at *
  case idle | paceWait | bitLow => contradiction
  all_goals omega

/-- Counting the timer takes one tick from those ahead. -/
theorem ticksLeft_countTimer (s : State) (h : s.Inv) (hidle : s.ph ≠ .idle) (hgate : s.ph ≠ .paceWait) :
    (countTimer (elapse s)).ticksLeft < s.ticksLeft := by
  have htmr := h.tmr_lt_phaseLength hidle hgate
  cases hph : s.ph <;>
    simp only [hph, phaseLength, State.ticksLeft, countTimer_ph, countTimer_tmr, countTimer_bitIdx, elapse_ph,
      elapse_tmr, elapse_bitIdx] at *
  case idle | paceWait => contradiction
  all_goals omega

/-- Parts 1 and 2 of a busy tick leave fewer ticks ahead, whatever update part 2 makes. -/
theorem PhaseUpdate.ticksLeft_lt {s t : State} (hupd : PhaseUpdate s (elapse s) t) (h : s.Inv) (hbusy : s.ph ≠ .idle) :
    t.ticksLeft < s.ticksLeft := by
  cases hupd with
  | idle hph => exact absurd hph hbusy
  | held hph hpace =>
    simp only [State.ticksLeft, elapse_ph, elapse_paceCnt, hph, countdown_eq]
    omega
  | opened hph =>
    simp only [State.ticksLeft, openGate_ph, openGate_tmr, hph]
    omega
  | entered hidle hgate hbit => exact ticksLeft_enter s h hidle hgate hbit
  | counted hidle hgate => exact ticksLeft_countTimer s h hidle hgate
  | stored hph hidx =>
    have hbound := h.bitBound
    have htmr := h.timerWait (by simp [hph, phaseIsWait])
    simp only [State.ticksLeft, storeBit_ph, storeBit_tmr, storeBit_bitIdx, elapse_bitIdx, hph,
      toNat_bitIdx_succ _ hbound]
    omega
  | captured => simpa using ticksLeft_pos s h hbusy
  | timedOut =>
    rw [ticksLeft_of_idle _ rfl]
    exact ticksLeft_pos s h hbusy

/-- A busy tick without reset leaves fewer ticks ahead. -/
theorem ticksLeft_step (s t : State) (hinv : s.Inv) (hbusy : s.ph ≠ .idle) (h : step s = .next t)
    (hr : s.input.rst = false) : t.ticksLeft < s.ticksLeft := by
  obtain ⟨b, rfl⟩ := step_of_busy s t h hr hbusy
  rw [ticksLeft_withFault]
  exact (phaseAction_update s (elapse s)).ticksLeft_lt hinv hbusy

/-- A busy block comes to IDLE, with `done`, within the ticks it has ahead, and is busy until then. -/
theorem read_ends_within (n : Nat) (s : State) (hinv : s.Inv) (hbusy : s.ph ≠ .idle) (hleft : s.ticksLeft ≤ n)
    (hno : s.noResetFor n) :
    ∃ k t, k < n ∧ ticks (k + 1) s = .next t ∧ t.ph = .idle ∧ t.done = true ∧
      ∀ j, j ≤ k → ∃ u, ticks j s = .next u ∧ u.ph ≠ .idle := by
  induction n generalizing s with
  | zero => exact absurd (ticksLeft_pos s hinv hbusy) (by omega)
  | succ n ih =>
    obtain ⟨t, hstep⟩ := step_of_inRange s hinv.inRange
    have hr : s.input.rst = false := inputAt_zero s ▸ hno 0 n.succ_pos
    by_cases hidle : t.ph = .idle
    · obtain ⟨-, -, hdone, -⟩ := resultChangesOnlyOnCompletion s t hstep hr
      exact ⟨0, t, n.succ_pos, ticks_succ_of_next 0 s t hstep, hidle, hdone hbusy hidle,
        fun j hj => ⟨s, Nat.le_zero.1 hj ▸ rfl, hbusy⟩⟩
    · have hless := ticksLeft_step s t hinv hbusy hstep hr
      obtain ⟨k, u, hk, hrun, hend, hdone, hup⟩ := ih t (everyStepKeepsInv s t hinv hstep) hidle (by omega)
        (noResetFor_of_step n s t hno hstep)
      refine ⟨k + 1, u, by omega, (ticks_succ_of_next _ s t hstep).trans hrun, hend, hdone, fun j hj => ?_⟩
      cases j with
      | zero => exact ⟨s, rfl, hbusy⟩
      | succ j => exact ticks_succ_of_next j s t hstep ▸ hup j (by omega)

/-- Settles O54: the tick after acceptance has at most 34714 ticks ahead with the gate open, and with the gate closed its
count besides. -/
theorem everyReadCompletes : Obligations.EveryReadCompletes := by
  unfold Obligations.EveryReadCompletes
  intro s hinv hread hmode hno
  obtain ⟨t, hstep⟩ := step_of_inRange s hinv.inRange
  have ht := step_of_acceptsRead s t hstep hread hmode
  have hbusy : t.ph ≠ .idle := by simp [ht]
  have hleft : t.ticksLeft = s.paceCnt - 1 + 1 + 18000 + 30 + 83 * 201 := by
    simp only [ht, State.ticksLeft, acceptRead_ph, acceptRead_paceCnt, elapse_paceCnt, countdown_eq]
  have hbound := hinv.paceBound
  obtain ⟨k, u, hk, hrun, hend, hdone, hup⟩ :=
    read_ends_within t.ticksLeft t (everyStepKeepsInv s t hinv hstep) hbusy le_rfl
      (fun j hj => noResetFor_of_step 2034712 s t hno hstep j (by omega))
  refine ⟨k + 1, u, by omega, by omega, by omega, (ticks_succ_of_next _ s t hstep).trans hrun, hend, hdone, ?_⟩
  intro j hpos hj
  obtain ⟨i, rfl⟩ : ∃ i, j = i + 1 := ⟨j - 1, by omega⟩
  exact ticks_succ_of_next i s t hstep ▸ hup i (by omega)

/-! ## The shortest a READ can take (R212) -/

/-- Ticks a READ still takes at least: the hold phases in full, and then one tick for every wait phase ahead, 3 of the
handshake and 2 a bit, or the ticks to the timeout of this wait where they are fewer (41_waiter.md R101). -/
def State.minTicksLeft (s : State) : Nat :=
  match s.ph with
  | .idle => 0
  | .paceWait => 1 + 18000 + 30 + 83
  | .startLow => (18000 - s.tmr) + 30 + 83
  | .startHigh => (30 - s.tmr) + 83
  | .ackLow => min (201 - s.tmr) 83
  | .ackHigh => min (201 - s.tmr) 82
  | .dataLow => min (201 - s.tmr) 81
  | .bitHigh => min (201 - s.tmr) (80 - 2 * s.bitIdx.toNat)
  | .bitLow => min (201 - s.tmr) (79 - 2 * s.bitIdx.toNat)

@[simp] theorem minTicksLeft_withFault (s : State) (b : Bool) : (s.withFault b).minTicksLeft = s.minTicksLeft := rfl

@[simp] theorem minTicksLeft_of_idle (s : State) (h : s.ph = .idle) : s.minTicksLeft = 0 := by
  simp only [State.minTicksLeft, h]

/-- A wait may end by its timeout before the frame does. -/
theorem minTicksLeft_le_of_wait (s : State) (hwait : phaseIsWait s.ph = true) : s.minTicksLeft ≤ 201 - s.tmr := by
  cases hph : s.ph <;> simp only [hph, phaseIsWait, State.minTicksLeft, reduceCtorEq] at hwait ⊢
  all_goals omega

/-- Counting the timer of a wait takes at most one tick from those still needed. -/
theorem minTicksLeft_countTimer_of_wait (s : State) (hwait : phaseIsWait s.ph = true) :
    s.minTicksLeft ≤ (countTimer (elapse s)).minTicksLeft + 1 := by
  cases hph : s.ph <;>
    simp only [hph, phaseIsWait, reduceCtorEq, State.minTicksLeft, countTimer_ph, countTimer_tmr, countTimer_bitIdx,
      elapse_ph, elapse_tmr, elapse_bitIdx] at hwait ⊢
  all_goals omega

/-- Parts 1 and 2 take at most one tick from those still needed: a hold phase is left at its end alone, the bits begin at
index 0, and the frame ends after bit 39. -/
theorem minTicksLeft_phaseAction (s : State) (h : s.Inv) (hfresh : s.FreshFrame) :
    s.minTicksLeft ≤ (phaseAction Config.params s (elapse s)).minTicksLeft + 1 := by
  rcases phaseAction_cases s (elapse s) with ⟨hp, he⟩ | ⟨hp, -, he⟩ | ⟨hp, -, he⟩ | ⟨hp, hl, he⟩ | ⟨hp, hl, he⟩ |
    ⟨hp, hl, he⟩ | ⟨hp, hl, he⟩ | ⟨hp, -, he⟩ | ⟨hp, -, he⟩ | ⟨hp, -, he⟩ | ⟨hp, -, he⟩ |
    ⟨hp, -, hidx, he⟩ | ⟨hp, -, hidx, he⟩ | ⟨level, hw, -, hl, he⟩ | ⟨level, hw, -, -, he⟩ <;> rw [he]
  · simp [hp]
  · simp only [State.minTicksLeft, hp, openGate_ph, openGate_tmr]
    omega
  · simp only [State.minTicksLeft, hp, elapse_ph]
    omega
  · simp only [State.minTicksLeft, hp, hl, enter_ph, enter_tmr]
    omega
  · simp only [State.minTicksLeft, hp, countTimer_ph, countTimer_tmr, elapse_ph, elapse_tmr]
    omega
  · simp only [State.minTicksLeft, hp, hl, enter_ph, enter_tmr]
    omega
  · simp only [State.minTicksLeft, hp, countTimer_ph, countTimer_tmr, elapse_ph, elapse_tmr]
    omega
  · simp only [State.minTicksLeft, hp, enter_ph, enter_tmr]
    omega
  · simp only [State.minTicksLeft, hp, enter_ph, enter_tmr]
    omega
  · obtain ⟨-, hfirst⟩ := hfresh.handshake (by simp [hp])
    have hzero : s.bitIdx.toNat = 0 := by simp [hfirst]
    simp only [State.minTicksLeft, hp, enter_ph, enter_tmr, enter_bitIdx, elapse_bitIdx, hzero]
    omega
  · simp only [State.minTicksLeft, hp, enter_ph, enter_tmr, enter_bitIdx, elapse_bitIdx]
    omega
  · simp only [State.minTicksLeft, hp, storeBit_ph, storeBit_tmr, storeBit_bitIdx, elapse_bitIdx,
      toNat_bitIdx_succ _ h.bitBound]
    omega
  · simp only [State.minTicksLeft, hp, hidx, onFrame_ph]
    omega
  · have hout := minTicksLeft_le_of_wait s (phaseIsWait_of_waitTarget _ _ hw)
    omega
  · exact minTicksLeft_countTimer_of_wait s (phaseIsWait_of_waitTarget _ _ hw)

/-- A tick without reset takes at most one tick from those still needed. -/
theorem minTicksLeft_step (s t : State) (hinv : s.Inv) (hfresh : s.FreshFrame) (h : step s = .next t)
    (hr : s.input.rst = false) : s.minTicksLeft ≤ t.minTicksLeft + 1 := by
  by_cases hidle : s.ph = .idle
  · simp [hidle]
  · obtain ⟨b, rfl⟩ := step_of_busy s t h hr hidle
    rw [minTicksLeft_withFault]
    exact minTicksLeft_phaseAction s hinv hfresh

theorem minTicksLeft_ticks (k : Nat) (s t : State) (hinv : s.Inv) (hfresh : s.FreshFrame) (hno : s.noResetFor k)
    (h : ticks k s = .next t) : s.minTicksLeft ≤ t.minTicksLeft + k := by
  induction k generalizing s with
  | zero => cases h; exact le_rfl
  | succ k ih =>
    obtain ⟨u, hstep, hrest⟩ := (ticks_succ_next_iff k s t).1 h
    have hfirst := minTicksLeft_step s u hinv hfresh hstep (inputAt_zero s ▸ hno 0 k.succ_pos)
    have hlast := ih u (everyStepKeepsInv s u hinv hstep) (everyStepKeepsFreshFrame s u hfresh hstep)
      (noResetFor_of_step k s u hno hstep) hrest
    omega

/-- While a block still needs more than `k` ticks, it is busy `k` ticks on. -/
theorem busy_of_minTicksLeft (k : Nat) (s t : State) (hinv : s.Inv) (hfresh : s.FreshFrame) (hno : s.noResetFor k)
    (h : ticks k s = .next t) (hk : k < s.minTicksLeft) : t.busy = true := by
  have hleft := minTicksLeft_ticks k s t hinv hfresh hno h
  rw [busy_eq_true_iff]
  intro hidle
  rw [minTicksLeft_of_idle t hidle] at hleft
  omega

/-- Settles O55: the acceptance tick comes to PACE_WAIT, where 18114 ticks are still needed. -/
theorem noReadIsShorter : Obligations.NoReadIsShorter := by
  unfold Obligations.NoReadIsShorter
  intro s hinv hread hmode hno j hpos hj
  obtain ⟨i, rfl⟩ : ∃ i, j = i + 1 := ⟨j - 1, by omega⟩
  obtain ⟨t, hstep⟩ := step_of_inRange s hinv.inRange
  have hfresh : t.FreshFrame :=
    everyStepKeepsFreshFrame s t (freshFrame_of_ph s (.inl (ph_of_acceptsRead s hread))) hstep
  have hleft : t.minTicksLeft = 1 + 18000 + 30 + 83 := by
    rw [step_of_acceptsRead s t hstep hread hmode]
    simp only [State.minTicksLeft, acceptRead_ph]
  have ht : t.Inv := everyStepKeepsInv s t hinv hstep
  obtain ⟨u, hrun, -⟩ := ticks_of_inv i t ht
  exact ⟨u, (ticks_succ_of_next i s t hstep).trans hrun,
    busy_of_minTicksLeft i t u ht hfresh (noResetFor_of_step i s t (fun m hm => hno m (by omega)) hstep) hrun (by omega)⟩

end Sys2Proof.Machine
end

section
/-! The encoder on what the decoder reads: every word is put together again from its fields or its code (30_encoding.md
R60 to R67, R71; log entry 3). -/

namespace Sys2Proof

/-! ## A command word from its fields (30_encoding.md R60, R61) -/

section
variable (w : Word)

theorem encodeCmd_fields : encodeCmd (w.extractLsb' 0 2) (w.extractLsb' 2 30) = w :=
  (BitVec.extractLsb'_append_extractLsb'_eq_extractLsb' rfl).trans BitVec.extractLsb'_eq_self

/-- The fields above `OP` of an INIT word are the ignored bits of any other command word. -/
theorem initFields_append :
    w.extractLsb' 16 16 ++ w.extractLsb' 8 8 ++ w.extractLsb' 2 6 = w.extractLsb' 2 30 := by
  rw [BitVec.extractLsb'_append_extractLsb'_eq_extractLsb' (x := w) (start₂ := 16) (start₁ := 8) rfl]
  exact BitVec.extractLsb'_append_extractLsb'_eq_extractLsb' rfl

theorem encodeInit_fields (hop : w.extractLsb' 0 2 = 1) :
    encodeInit (w.extractLsb' 8 8) (w.extractLsb' 16 16) (w.extractLsb' 2 6) = w := by
  rw [encodeInit, initFields_append, ← hop]
  exact encodeCmd_fields w

/-- Every command word is the word of the command it is read as. -/
theorem encode_decodeCmd : encode (decodeCmd w) = .cmd w := by
  rcases decodeCmd_cases w with ⟨hop, hd⟩ | ⟨hop, hd⟩ | ⟨hop, hd⟩ | ⟨hop, hd⟩ <;> rw [hd] <;>
    refine congrArg Encoded.cmd ?_
  · rw [← hop, encodeCmd_fields]
  · exact encodeInit_fields w hop
  · rw [← hop, encodeCmd_fields]
  · rw [← hop, encodeCmd_fields]

end

/-! ## The word of a phase, a result and a pacing state is its code (30_encoding.md R65, R66, R67) -/

theorem encode_phaseInstr (q : Phase) : encode q.instr = .phase q.code := by cases q <;> rfl

theorem encode_resultInstr (r : ResultCode) : encode r.instr = .result r.code := by cases r <;> rfl

theorem encode_paceStateInstr (q : PaceState) : encode q.instr = .paceState q.code := by cases q <;> rfl

/-- Settles O2: a command or frame is put together again from its fields, a phase, result or pacing state from its code. -/
theorem encodeInvertsDecode : Obligations.EncodeInvertsDecode := by
  unfold Obligations.EncodeInvertsDecode
  intro e i h
  cases e with
  | cmd w =>
    cases h
    exact encode_decodeCmd w
  | phase c =>
    obtain ⟨q, hd, rfl⟩ := (map_eq_ok_iff _ _ _).1 h
    rw [encode_phaseInstr, phase_code_of_decode c q hd]
  | result c =>
    obtain ⟨r, hd, rfl⟩ := (map_eq_ok_iff _ _ _).1 h
    rw [encode_resultInstr, result_code_of_decode c r hd]
  | paceState c =>
    obtain ⟨q, hd, rfl⟩ := (map_eq_ok_iff _ _ _).1 h
    rw [encode_paceStateInstr, paceState_code_of_decode c q hd]
  | frame f =>
    cases h
    exact congrArg Encoded.frame (encodeFrame_fields f)

end Sys2Proof
end
